-- ==== Sys2Proof/Word.lean ====
section
/-! DEFINITION. The word types of the BF-EKS core.
R6: every cipher word and every host register has 32 bits; R62: key and salt material is read as bytes. -/

namespace Sys2Proof

/-- A cipher word or a host register: 32 bits, unsigned (R6, R9). -/
abbrev Word := BitVec 32

/-- One byte of key, salt or digest material (R23, R24, R86). -/
abbrev Byte := BitVec 8

/-- A byte offset inside the 8 KiB register window, 0x0000 to 0x1FFF (R31).
The thirteen bits are the window: an offset outside it is not the block's concern. -/
abbrev Offset := BitVec 13

end Sys2Proof
end

