-- ==== Sys2Proof/Syntax.lean ====
section
/-! DEFINITION. The commands, the names of the window's registers, and the events that reach the block.
Commands play the part of instructions (R11, R12): one constructor of `Instr` for each row of spec/opcode_table.json. -/

namespace Sys2Proof

/-- The eight commands of R49.
No command word has an operand, register or immediate field (R47), so no constructor has an argument. -/
inductive Instr where
  /-- INIT, OP 0x01: load the canonical state (R60). -/
  | init
  /-- ENCRYPT, OP 0x02: encrypt the block in DL, DR (R61). -/
  | encrypt
  /-- EXPAND0_KEY, OP 0x03: a plain pass keyed with the password bytes (R67). -/
  | expand0Key
  /-- EXPAND0_SALT, OP 0x04: a plain pass keyed with the salt bytes (R68). -/
  | expand0Salt
  /-- EXPAND_KEY_SALT, OP 0x05: a salted pass keyed with the password bytes (R69). -/
  | expandKeySalt
  /-- EKS_LOOP, OP 0x06: 2^COST iterations of password-expand, then salt-expand (R72). -/
  | eksLoop
  /-- DIGEST, OP 0x07: the 64-fold encryption of CTEXT (R75). -/
  | digest
  /-- BCRYPT, OP 0x08: the whole procedure (R76). -/
  | bcrypt
deriving DecidableEq, Repr

/-- The registers of the window, by the names of R31's map. -/
inductive Reg where
  | cmd
  | status
  | valid
  | cost
  | keylen
  | dl
  | dr
  | saltw (k : Fin 4)
  | keyw (w : Fin 18)
  | cdata (j : Fin 6)
  | pw (i : Fin 18)
  /-- SW[m], which shows S[m div 256][m mod 256] (R15). -/
  | sw (m : Fin 1024)
deriving DecidableEq, Repr

/-- The events of R108, and the reset input of R124.
A host access carries its width in bits, because an access of another width than 32 is refused with BusError (R34). -/
inductive Event where
  /-- HostRead(off) of R10, `width` bits wide. -/
  | read (width : Nat) (off : Offset)
  /-- HostWrite(off, v) of R10, `width` bits wide. -/
  | write (width : Nat) (off : Offset) (v : Word)
  /-- The running command completes now: one choice of the schedule of R108. -/
  | complete
  /-- The reset input is asserted (R124). -/
  | reset
deriving DecidableEq, Repr

end Sys2Proof
end

