-- ==== Sys2Proof/WellFormed.lean ====
section
/-! DEFINITION. Which command words have the form the spec asks for.
A word that fails the check still has an effect in the machine: Error(ILLEGAL) (R48, R50).
Which host accesses have the one legal form (R33) is `accessLegal` of Machine/Window.lean. -/

namespace Sys2Proof

/-- A command has no operand field (R47), so each of the eight is well formed as it stands. -/
def Instr.wellFormed : Instr → Bool
  | .init => true
  | .encrypt => true
  | .expand0Key => true
  | .expand0Salt => true
  | .expandKeySalt => true
  | .eksLoop => true
  | .digest => true
  | .bcrypt => true

/-- A legal command word: RSVD is zero and OP is 0x01 to 0x08 (R46, R49), so the whole word is 1 to 8. -/
def wellFormedCommandWord (w : Word) : Bool :=
  decide (1 ≤ w.toNat ∧ w.toNat ≤ 8)

end Sys2Proof
end

