-- ==== Sys2Proof/Decode.lean ====
section
/-! DEFINITION. The command decoder of R46 to R56, and the encoder beside it. -/

namespace Sys2Proof

/-- Why a word is no command; the block reports either as Error(ILLEGAL) (R100). -/
inductive DecodeError where
  /-- RSVD, bits 31:8, is not zero (R48). -/
  | reservedBits
  /-- OP is 0x00 or 0x09 to 0xFF (R50). -/
  | reservedOp
deriving DecidableEq, Repr

/-- OP, bits 7:0 of a command word (R46). -/
def opField (w : Word) : BitVec 8 := w.extractLsb' 0 8

/-- RSVD, bits 31:8 of a command word (R46). -/
def rsvdField (w : Word) : BitVec 24 := w.extractLsb' 8 24

/-- The opcode map of R49. -/
def decodeOp (op : BitVec 8) : Except DecodeError Instr :=
  match op with
  | 0x01#8 => .ok .init
  | 0x02#8 => .ok .encrypt
  | 0x03#8 => .ok .expand0Key
  | 0x04#8 => .ok .expand0Salt
  | 0x05#8 => .ok .expandKeySalt
  | 0x06#8 => .ok .eksLoop
  | 0x07#8 => .ok .digest
  | 0x08#8 => .ok .bcrypt
  | _ => .error .reservedOp

/-- The decoder of R56: RSVD first, then OP. -/
def decode (w : Word) : Except DecodeError Instr :=
  if rsvdField w ≠ 0 then .error .reservedBits else decodeOp (opField w)

/-- The opcode of a command, the column OP of R49. -/
def Instr.opcode : Instr → BitVec 8
  | .init => 0x01#8
  | .encrypt => 0x02#8
  | .expand0Key => 0x03#8
  | .expand0Salt => 0x04#8
  | .expandKeySalt => 0x05#8
  | .eksLoop => 0x06#8
  | .digest => 0x07#8
  | .bcrypt => 0x08#8

/-- The one 32-bit word of a command: RSVD zero above OP (R46). -/
def encode (i : Instr) : Word := 0#24 ++ i.opcode

/-- The table's word as the 32-bit command word the host writes to CMD.
A command is one 32-bit word (R46), so a value that needs more bits is no command word. -/
def commandWordOfTable (nbits w : Nat) : Option Word :=
  let v := w % 2 ^ nbits
  if v < 2 ^ 32 then some (BitVec.ofNat 32 v) else none

/-- The command the decoder reads from a row's bits, numbered as spec/opcode_table.json numbers them. -/
def decodeTableWord (nbits w : Nat) : Option Instr :=
  match commandWordOfTable nbits w with
  | none => none
  | some v => (decode v).toOption

end Sys2Proof
end

