-- ==== Sys2Proof/Machine/State.lean ====
section
/-! DEFINITION. The state of one BF-EKS core, why a step could stop, and the state after reset. -/

namespace Sys2Proof.Machine

/-- The cipher state (P, S) of R14 and R15. -/
structure Cipher where
  /-- The P-array P[0] to P[17] (R14). -/
  p : Vector Word 18
  /-- The S-boxes S[0] to S[3], 256 words each (R15). -/
  sbox : Vector (Vector Word 256) 4
deriving DecidableEq, Repr

/-- A 64-bit block as its two halves (R6: BLOCK). -/
structure Block where
  left : Word
  right : Word
deriving DecidableEq, Repr

/-- The error codes of R99 that are ever produced; codes 6 to 15 are never produced. -/
inductive ErrCode where
  | ok
  | illegal
  | cost
  | keylen
  | uninit
  | nostate
deriving DecidableEq, Repr

/-- The stored fields of STATUS (R27).
BUSY is not stored here: it is 1 exactly while the sequencer runs a command, and `State.busy` reads it from there.
The reserved bits are stuck at 0 and have no storage. -/
structure Status where
  done : Bool
  err : Bool
  sticky : Bool
  ovr : Bool
  errcode : ErrCode
  lastop : BitVec 8
deriving DecidableEq, Repr

/-- The fields of VALID (R28); its reserved bits are stuck at 0 and have no storage. -/
structure Valid where
  sv : Bool
  cv : Bool
  dlv : Bool
  drv : Bool
  saltv : BitVec 4
  keyv : BitVec 18
deriving DecidableEq, Repr

/-- The sequencer (R13): idle, or running the accepted command word `w` (R29's flag that a command is in flight).
The whole word is kept, because Error(ILLEGAL) looks at bits 31:8 and LASTOP keeps only bits 7:0. -/
inductive Sequencer where
  | idle
  | running (w : Word)
deriving DecidableEq, Repr

/-- How the block answers a host access on the bus. -/
inductive Response where
  /-- A read completed with this value (R33). -/
  | data (v : Word)
  /-- A write completed without a bus error, whether performed (R38) or rejected while busy (R130). -/
  | written
  /-- The access was refused with BusError (R117). -/
  | busError
deriving DecidableEq, Repr

/-- Everything the block holds, and the model's own fields (the schedule, the bus answer, the count of free draws). -/
structure State where
  /-- P and S (R14, R15). -/
  cipher : Cipher
  /-- DL (R19). -/
  dl : Word
  /-- DR (R19). -/
  dr : Word
  /-- COST (R20). -/
  cost : Word
  /-- KEYLEN (R21). -/
  keylen : Word
  /-- KEYW[0..17] (R22). -/
  keyw : Vector Word 18
  /-- SALTW[0..3] (R22). -/
  saltw : Vector Word 4
  /-- CDATA[0..5] (R25). -/
  cdata : Vector Word 6
  /-- STATUS but for BUSY (R27). -/
  status : Status
  /-- VALID (R28). -/
  valid : Valid
  /-- The sequencer, and with it STATUS.BUSY (R27, R29). -/
  sequencer : Sequencer
  /-- MODEL'S OWN. The events still to come, in the order they take effect (R41, R108); the first is next. -/
  events : List Event
  /-- MODEL'S OWN. The block's answer to the last host access, none before the first. -/
  response : Option Response
  /-- MODEL'S OWN. How many free values have been drawn; the next is `Config.freeWord draws`. -/
  draws : Nat
deriving DecidableEq, Repr

/-- The machine stops with a fault: never.
The spec gives every event an effect (a command error is reported in STATUS, R98; a refused access answers BusError
and changes nothing, R117), so there is no constructor. -/
inductive Fault where
deriving DecidableEq, Repr

/-- Why a command has no meaning in the model. -/
inductive Refusal where
  /-- Answered by an arm of `exec` whose command has no meaning yet; safe, since nothing can be proved to follow.
  No arm of this model answers it. -/
  | notModelled (mnemonic : String)
deriving DecidableEq, Repr

/-- The state right after reset (R30, R126).
STATUS, VALID, COST, KEYLEN and the idle sequencer are the spec's values.
DESIGN CHOICE (log entry 1): P, S, DL, DR, KEYW, SALTW and CDATA, which the spec leaves unspecified, are zero here. -/
def State.reset : State where
  cipher := ⟨Vector.replicate 18 0, Vector.replicate 4 (Vector.replicate 256 0)⟩
  dl := 0
  dr := 0
  cost := 0
  keylen := 0
  keyw := Vector.replicate 18 0
  saltw := Vector.replicate 4 0
  cdata := Vector.replicate 6 0
  status := ⟨false, false, false, false, .ok, 0⟩
  valid := ⟨false, false, false, false, 0, 0⟩
  sequencer := .idle
  events := []
  response := none
  draws := 0

end Sys2Proof.Machine
end

