-- ==== Sys2Proof/Machine/Operands.lean ====
section
/-! DEFINITION. How commands read their operands: bytes in big-endian position, the key stream and the salt stream. -/

namespace Sys2Proof.Machine

/-- Byte t of a word in big-endian position, w[31-8t : 24-8t], for t = 0..3 (R8). -/
def bigEndianByte (w : Word) (t : Nat) : Byte := w.extractLsb' (24 - 8 * t) 8

/-- be32(b0, b1, b2, b3) of R9: b0 is the most significant byte. -/
def be32 (b0 b1 b2 b3 : Byte) : Word := b0 ++ b1 ++ b2 ++ b3

/-- KEYBYTE(j) of R23, for j = 0..71.
The key stream asks only for j below KEYLEN, which is at most 72; past the buffer's end there is no byte and none is read. -/
def keyByte (keyw : Vector Word 18) (j : Nat) : Byte :=
  bigEndianByte (keyw[j / 4]?.getD 0) (j % 4)

/-- SALTBYTE(j) of R24, for j = 0..15. -/
def saltByte (saltw : Vector Word 4) (j : Nat) : Byte :=
  bigEndianByte (saltw[j / 4]?.getD 0) (j % 4)

/-- Word i of the key stream of an n-byte string K (R62). -/
def keyStreamWord (K : Nat → Byte) (n i : Nat) : Word :=
  be32 (K ((4 * i) % n)) (K ((4 * i + 1) % n)) (K ((4 * i + 2) % n)) (K ((4 * i + 3) % n))

/-- The 18 words of the key stream of R62. -/
def keyStream (K : Nat → Byte) (n : Nat) : Vector Word 18 :=
  Vector.ofFn fun i => keyStreamWord K n i.val

/-- KW_KEY of R62: the key stream of the password bytes, K[j] = KEYBYTE(j), n = KEYLEN. -/
def kwKey (s : State) : Vector Word 18 := keyStream (keyByte s.keyw) s.keylen.toNat

/-- KW_SALT of R62: the key stream of the sixteen salt bytes. -/
def kwSalt (s : State) : Vector Word 18 := keyStream (saltByte s.saltw) 16

/-- SW(m) = SALTW[m mod 4], the salt stream of R63. -/
def saltStream (saltw : Vector Word 4) (m : Nat) : Word :=
  saltw[m % 4]'(Nat.mod_lt _ (by decide))

/-- ceil(KEYLEN/4): how many key words a command reads (R67, R103). -/
def keyWordsNeeded (keylen : Word) : Nat := (keylen.toNat + 3) / 4

end Sys2Proof.Machine
end

