-- ==== Sys2Proof/Machine/Cipher.lean ====
section
/-! DEFINITION. The cipher as functions of (P, S): the round function, EncryptBlock, the two key-schedule passes,
the re-key loop and the digest procedure. Nothing here knows of registers or STATUS. -/

namespace Sys2Proof.Machine

/-- S[k] looked up at byte b (R57). -/
def Cipher.sboxAt (c : Cipher) (k : Fin 4) (b : Byte) : Word := c.sbox[k][b.toNat]

/-- The round function F of R57; the bytes a, b, c, d of x index S[0], S[1], S[2], S[3]. -/
def Cipher.roundF (c : Cipher) (x : Word) : Word :=
  ((c.sboxAt 0 (bigEndianByte x 0) + c.sboxAt 1 (bigEndianByte x 1))
      ^^^ c.sboxAt 2 (bigEndianByte x 2))
    + c.sboxAt 3 (bigEndianByte x 3)

/-- One Feistel round with subkey k, the swap included (R58). -/
def Cipher.feistelRound (c : Cipher) (b : Block) (k : Word) : Block :=
  let l := b.left ^^^ k
  let r := b.right ^^^ c.roundF l
  ⟨r, l⟩

/-- EncryptBlock of R58: sixteen rounds, the last swap undone, then P[16] into the right half and P[17] into the left. -/
def Cipher.encryptBlock (c : Cipher) (b : Block) : Block :=
  let b16 := (c.p.toList.take 16).foldl c.feistelRound b
  ⟨b16.right ^^^ c.p[17], b16.left ^^^ c.p[16]⟩

/-- Store(n, L, R) of R64: slots 0..8 fill P, slots 9..520 fill the S-boxes in turn.
With m = n - 9, k = m div 128 and i = 2 * (m mod 128), the words are S[k][i] and S[k][i+1]. -/
def Cipher.store (c : Cipher) (n : Fin 521) (b : Block) : Cipher :=
  if h : n.val ≤ 8 then
    { c with p := (c.p.set (2 * n.val) b.left).set (2 * n.val + 1) b.right }
  else
    { c with
      sbox := c.sbox.set ((n.val - 9) / 128)
        ((c.sbox[(n.val - 9) / 128].set (2 * ((n.val - 9) % 128)) b.left).set
          (2 * ((n.val - 9) % 128) + 1) b.right) }

/-- The first line of a pass: P[i] <- P[i] ^ KW(i) for i = 0..17 (R65, R66). -/
def Cipher.mixKey (c : Cipher) (kw : Vector Word 18) : Cipher :=
  { c with p := Vector.ofFn fun i => c.p[i] ^^^ kw[i] }

/-- One slot of the plain pass: encrypt the running block, store it, chain it (R65). -/
def expand0Slot (cb : Cipher × Block) (n : Fin 521) : Cipher × Block :=
  let b := cb.1.encryptBlock cb.2
  (cb.1.store n b, b)

/-- The plain pass Expand0(KW) of R65. -/
def Cipher.expand0 (c : Cipher) (kw : Vector Word 18) : Cipher :=
  ((List.finRange 521).foldl expand0Slot (c.mixKey kw, ⟨0, 0⟩)).1

/-- One slot of the salted pass: SW(2n) and SW(2n+1) enter the running block before it is encrypted (R66). -/
def expandSaltedSlot (saltw : Vector Word 4) (cb : Cipher × Block) (n : Fin 521) : Cipher × Block :=
  let b := cb.1.encryptBlock
    ⟨cb.2.left ^^^ saltStream saltw (2 * n.val), cb.2.right ^^^ saltStream saltw (2 * n.val + 1)⟩
  (cb.1.store n b, b)

/-- The salted pass ExpandSalted(KW) of R66. -/
def Cipher.expandSalted (c : Cipher) (kw : Vector Word 18) (saltw : Vector Word 4) : Cipher :=
  ((List.finRange 521).foldl (expandSaltedSlot saltw) (c.mixKey kw, ⟨0, 0⟩)).1

/-- One iteration of the re-key loop: password-expand, then salt-expand (R72, 90_conflicts.md C3). -/
def rekeyOnce (kwPassword kwSaltBytes : Vector Word 18) (c : Cipher) : Cipher :=
  (c.expand0 kwPassword).expand0 kwSaltBytes

/-- The loop of R72: 2^COST iterations. -/
def Cipher.rekeyLoop (c : Cipher) (cost : Nat) (kwPassword kwSaltBytes : Vector Word 18) : Cipher :=
  (rekeyOnce kwPassword kwSaltBytes)^[2 ^ cost] c

/-- CTEXT of R73: OrpheanBeholderScryDoubt, four bytes a word. -/
def ctext : Vector Word 6 :=
  #v[0x4F727068, 0x65616E42, 0x65686F6C, 0x64657253, 0x63727944, 0x6F756274]

/-- One of the 64 rounds of R74: each of the three blocks is encrypted in place, apart from the others. -/
def Cipher.digestRound (c : Cipher) (C : Vector Word 6) : Vector Word 6 :=
  let b0 := c.encryptBlock ⟨C[0], C[1]⟩
  let b1 := c.encryptBlock ⟨C[2], C[3]⟩
  let b2 := c.encryptBlock ⟨C[4], C[5]⟩
  #v[b0.left, b0.right, b1.left, b1.right, b2.left, b2.right]

/-- Digest() of R74. -/
def Cipher.digest (c : Cipher) : Vector Word 6 := c.digestRound^[64] ctext

end Sys2Proof.Machine
end

