-- ==== Sys2Proof/Config.lean ====
section
/-! DEFINITION. What the spec leaves free: the values no proof may know.
The other OPEN parameters of R7 and 92_eei_decisions.md are not constants here:
the latency LAT and the order of R108 are the schedule in `State.events`,
BASE and N_INSTANCES are data of Machine/System.lean, HOST_BUS_ERROR is an argument of the host program's run,
and LEGACY_VARIANT_MODE is the refusal of R97. -/

namespace Sys2Proof

/-- The free draws: the n-th 32-bit value the spec calls "any value" (R30, R39, R40, R126).
It has no body, so nothing can be proved about any of its values; a counter in State picks a fresh n for each draw. -/
opaque Config.freeWord : Nat → Word

/-- TEXT_ENCODING of R82: how the host turns password text into bytes (OPEN, 92_eei_decisions.md D30). -/
opaque Config.textEncoding : String → List Byte

end Sys2Proof
end

