-- ==== Sys2Proof/Machine/Flags.lean ====
section
/-! DEFINITION. STATUS and VALID as the words a host reads, and the valid bits as the commands test them.
The block has no arithmetic flags (R9): these are the fields R12 calls "flags written". -/

namespace Sys2Proof.Machine

/-- The 4-bit code of R99. -/
def ErrCode.code : ErrCode → BitVec 4
  | .ok => 0
  | .illegal => 1
  | .cost => 2
  | .keylen => 3
  | .uninit => 4
  | .nostate => 5

/-- STATUS.BUSY: 1 from the acceptance of a command until its completion (R27). -/
def State.busy (s : State) : Bool :=
  match s.sequencer with
  | .idle => false
  | .running _ => true

/-- STATUS as a word, bit 31 first (R27). -/
def Status.toWord (busy : Bool) (st : Status) : Word :=
  0#8 ++ st.lastop ++ 0#4 ++ st.errcode.code ++ 0#3
    ++ BitVec.ofBool st.ovr ++ BitVec.ofBool st.sticky ++ BitVec.ofBool st.err
    ++ BitVec.ofBool st.done ++ BitVec.ofBool busy

/-- The value a host read of STATUS returns (R27). -/
def State.statusWord (s : State) : Word := s.status.toWord s.busy

/-- VALID as a word, bit 31 first (R28). -/
def Valid.toWord (v : Valid) : Word :=
  0#6 ++ v.keyv ++ v.saltv ++ BitVec.ofBool v.drv ++ BitVec.ofBool v.dlv
    ++ BitVec.ofBool v.cv ++ BitVec.ofBool v.sv

/-- The value a host read of VALID returns (R28). -/
def State.validWord (s : State) : Word := s.valid.toWord

/-- VALID.SALTV[k] (R28). -/
def Valid.saltValid (v : Valid) (k : Nat) : Bool := v.saltv.getLsbD k

/-- VALID.KEYV[w] (R28). -/
def Valid.keyValid (v : Valid) (w : Nat) : Bool := v.keyv.getLsbD w

/-- A host write of SALTW[k] sets VALID.SALTV[k] (R22, R28). -/
def Valid.markSalt (v : Valid) (k : Nat) : Valid :=
  { v with saltv := v.saltv ||| BitVec.twoPow 4 k }

/-- A host write of KEYW[w] sets VALID.KEYV[w] (R22, R28). -/
def Valid.markKey (v : Valid) (w : Nat) : Valid :=
  { v with keyv := v.keyv ||| BitVec.twoPow 18 w }

end Sys2Proof.Machine
end

