-- ==== Sys2Proof/Machine/Ops.lean ====
section
/-! DEFINITION. The operations every command shares: acceptance, the two ways a command completes (normally, or with an
error, which is this block's only exception), the checks at a command's head, and the reset input. -/

namespace Sys2Proof.Machine

/-- A command word w is accepted: the first STATUS update of R111. BUSY becomes 1 as the sequencer starts to run w. -/
def State.acceptCommand (w : Word) (s : State) : State :=
  { s with
    sequencer := .running w
    status := { s.status with done := false, err := false, errcode := .ok, lastop := w.extractLsb' 0 8 } }

/-- The command completes normally: the second STATUS update of R111. -/
def State.finish (s : State) : State :=
  { s with sequencer := .idle, status := { s.status with done := true } }

/-- `raise Error(c)` of R10: the third STATUS update of R111, and nothing else changes (R106).
The block has no trap, no vector and no saved state (R98, R109); the return from an error is the next acceptance,
which clears DONE, ERR and ERRCODE (R110). -/
def State.raiseError (c : ErrCode) (s : State) : State :=
  { s with
    sequencer := .idle
    status := { s.status with done := true, err := true, errcode := c, sticky := true } }

/-- A command with its checks made before any change: it raises the first error found, or has its effect and completes
(R98, R105, R106). -/
def State.runChecked (check : Option ErrCode) (effect : State → State) (s : State) :
    Host.Outcome State Fault Refusal :=
  match check with
  | some c => .next (s.raiseError c)
  | none => .next (effect s).finish

/-- The cost check of R71 and R101, unsigned. -/
def State.costError (s : State) : Option ErrCode :=
  if 4 ≤ s.cost.toNat ∧ s.cost.toNat ≤ 31 then none else some .cost

/-- The check of R102: KEYLEN is 1 to 72. -/
def State.keylenError (s : State) : Option ErrCode :=
  if 1 ≤ s.keylen.toNat ∧ s.keylen.toNat ≤ 72 then none else some .keylen

/-- Every key word w below ceil(KEYLEN/4) has its valid bit (R103). -/
def State.keyReady (s : State) : Bool :=
  decide (∀ w : Fin 18, w.val < keyWordsNeeded s.keylen → s.valid.keyValid w.val = true)

/-- VALID.SALTV = 0b1111 (R103). -/
def State.saltReady (s : State) : Bool := s.valid.saltv == 0b1111#4

/-- The check of R103 for EXPAND0_KEY. -/
def State.keyError (s : State) : Option ErrCode :=
  if s.keyReady then none else some .uninit

/-- The check of R103 for EXPAND0_SALT. -/
def State.saltError (s : State) : Option ErrCode :=
  if s.saltReady then none else some .uninit

/-- The check of R103 for EXPAND_KEY_SALT, EKS_LOOP and BCRYPT: either operand missing. -/
def State.keySaltError (s : State) : Option ErrCode :=
  if s.keyReady && s.saltReady then none else some .uninit

/-- The check of R103 for ENCRYPT. -/
def State.blockError (s : State) : Option ErrCode :=
  if s.valid.dlv && s.valid.drv then none else some .uninit

/-- The check of R104: P and S have been seeded since reset. -/
def State.seedError (s : State) : Option ErrCode :=
  if s.valid.sv then none else some .nostate

/-- n fresh free draws, the first numbered `base`. -/
def drawWords (n base : Nat) : Vector Word n := Vector.ofFn fun i => Config.freeWord (base + i.val)

/-- The reset input of R124, as R126 gives its effect: STATUS, VALID, COST and KEYLEN are 0, the sequencer is idle,
and every word of P, S, DL, DR, KEYW, SALTW and CDATA is a fresh free draw (1072 of them).
The events still to come are the outside world's and stay. -/
def State.resetInput (s : State) : State :=
  { State.reset with
    cipher :=
      { p := drawWords 18 s.draws
        sbox := Vector.ofFn fun k => drawWords 256 (s.draws + 18 + 256 * k.val) }
    dl := Config.freeWord (s.draws + 1042)
    dr := Config.freeWord (s.draws + 1043)
    keyw := drawWords 18 (s.draws + 1044)
    saltw := drawWords 4 (s.draws + 1062)
    cdata := drawWords 6 (s.draws + 1066)
    events := s.events
    draws := s.draws + 1072 }

end Sys2Proof.Machine
end

