-- ==== Sys2Proof/Machine/BlockCommands.lean ====
section
/-! DEFINITION. The meanings of INIT and ENCRYPT (40_blowfish_core.md). -/

namespace Sys2Proof.Machine

/-- INIT (R60): P and S become the canonical state and SV is set; nothing is checked. -/
def execInit (s : State) : Host.Outcome State Fault Refusal :=
  s.runChecked none fun s =>
    { s with cipher := canonicalCipher, valid := { s.valid with sv := true } }

/-- ENCRYPT (R61): UNINIT, then NOSTATE, then (DL, DR) <- EncryptBlock(DL, DR) as one simultaneous assignment. -/
def execEncrypt (s : State) : Host.Outcome State Fault Refusal :=
  s.runChecked (s.blockError.or s.seedError) fun s =>
    let b := s.cipher.encryptBlock ⟨s.dl, s.dr⟩
    { s with dl := b.left, dr := b.right }

end Sys2Proof.Machine
end

