-- ==== Sys2Proof/Machine/EksCommands.lean ====
section
/-! DEFINITION. The meanings of EKS_LOOP, DIGEST and BCRYPT (42_eks_iterator.md). -/

namespace Sys2Proof.Machine

/-- EKS_LOOP (R72): COST, KEYLEN, UNINIT, NOSTATE, then 2^COST iterations of password-expand and salt-expand. -/
def execEksLoop (s : State) : Host.Outcome State Fault Refusal :=
  s.runChecked (s.costError.or (s.keylenError.or (s.keySaltError.or s.seedError))) fun s =>
    { s with cipher := s.cipher.rekeyLoop s.cost.toNat (kwKey s) (kwSalt s) }

/-- DIGEST (R75): NOSTATE, then CDATA <- Digest() and CV is set. -/
def execDigest (s : State) : Host.Outcome State Fault Refusal :=
  s.runChecked s.seedError fun s =>
    { s with cdata := s.cipher.digest, valid := { s.valid with cv := true } }

/-- BCRYPT (R76): COST, KEYLEN, UNINIT (never NOSTATE), then the four steps of the whole procedure. -/
def execBcrypt (s : State) : Host.Outcome State Fault Refusal :=
  s.runChecked (s.costError.or (s.keylenError.or s.keySaltError)) fun s =>
    let c := (canonicalCipher.expandSalted (kwKey s) s.saltw).rekeyLoop s.cost.toNat (kwKey s) (kwSalt s)
    { s with
      cipher := c
      cdata := c.digest
      valid := { s.valid with sv := true, cv := true } }

end Sys2Proof.Machine
end

