-- ==== Sys2Proof/Machine/KeyCommands.lean ====
section
/-! DEFINITION. The meanings of EXPAND0_KEY, EXPAND0_SALT and EXPAND_KEY_SALT (41_key_schedule.md). -/

namespace Sys2Proof.Machine

/-- EXPAND0_KEY (R67): KEYLEN, UNINIT, NOSTATE, then Expand0(KW_KEY). -/
def execExpand0Key (s : State) : Host.Outcome State Fault Refusal :=
  s.runChecked (s.keylenError.or (s.keyError.or s.seedError)) fun s =>
    { s with cipher := s.cipher.expand0 (kwKey s) }

/-- EXPAND0_SALT (R68): UNINIT, NOSTATE, then Expand0(KW_SALT). -/
def execExpand0Salt (s : State) : Host.Outcome State Fault Refusal :=
  s.runChecked (s.saltError.or s.seedError) fun s =>
    { s with cipher := s.cipher.expand0 (kwSalt s) }

/-- EXPAND_KEY_SALT (R69): KEYLEN, UNINIT, NOSTATE, then ExpandSalted(KW_KEY). -/
def execExpandKeySalt (s : State) : Host.Outcome State Fault Refusal :=
  s.runChecked (s.keylenError.or (s.keySaltError.or s.seedError)) fun s =>
    { s with cipher := s.cipher.expandSalted (kwKey s) s.saltw }

end Sys2Proof.Machine
end

