-- ==== Sys2Proof/Machine/Dispatch.lean ====
section
/-! DEFINITION. One arm per command: what the sequencer does when the accepted command completes. -/

namespace Sys2Proof.Machine

/-- The effect a command has at its completion, its STATUS update included (R29, R111). -/
def exec (i : Instr) (s : State) : Host.Outcome State Fault Refusal :=
  match i with
  | .init => Sys2Proof.Machine.execInit s
  | .encrypt => Sys2Proof.Machine.execEncrypt s
  | .expand0Key => Sys2Proof.Machine.execExpand0Key s
  | .expand0Salt => Sys2Proof.Machine.execExpand0Salt s
  | .expandKeySalt => Sys2Proof.Machine.execExpandKeySalt s
  | .eksLoop => Sys2Proof.Machine.execEksLoop s
  | .digest => Sys2Proof.Machine.execDigest s
  | .bcrypt => Sys2Proof.Machine.execBcrypt s

end Sys2Proof.Machine
end

