-- ==== Sys2Proof/Machine/Window.lean ====
section
/-! DEFINITION. The register window: the map of R31, and what one host read or host write does. -/

namespace Sys2Proof.Machine

/-- A host access of the one form the block has: 32 bits wide, at a multiple of 4 (R33, R34). -/
def accessLegal (width : Nat) (off : Offset) : Bool :=
  decide (width = 32 ∧ off.toNat % 4 = 0)

/-- The single registers at the head of the window, by word index (R31). -/
def controlReg : Nat → Option Reg
  | 0 => some .cmd
  | 1 => some .status
  | 2 => some .valid
  | 3 => some .cost
  | 4 => some .keylen
  | 5 => some .dl
  | 6 => some .dr
  | _ => none

/-- An array of n registers from byte offset `base` on: the one whose word holds byte o, if one does. -/
def arrayReg (base n : Nat) (reg : Fin n → Reg) (o : Nat) : Option Reg :=
  if h : base ≤ o ∧ o < base + 4 * n then some (reg ⟨(o - base) / 4, by omega⟩) else none

/-- The register whose word holds byte offset `off`, by the map of R31; none at a reserved offset. -/
def regAt (off : Offset) : Option Reg :=
  let o := off.toNat
  controlReg (o / 4)
    |>.or (arrayReg 0x020 4 .saltw o)
    |>.or (arrayReg 0x040 18 .keyw o)
    |>.or (arrayReg 0x0A0 6 .cdata o)
    |>.or (arrayReg 0x100 18 .pw o)
    |>.or (arrayReg 0x1000 1024 .sw o)

/-- The byte offset of a register, the first column of R31's map. -/
def regOffset : Reg → Offset
  | .cmd => 0x000
  | .status => 0x004
  | .valid => 0x008
  | .cost => 0x00C
  | .keylen => 0x010
  | .dl => 0x014
  | .dr => 0x018
  | .saltw k => BitVec.ofNat 13 (0x020 + 4 * k.val)
  | .keyw w => BitVec.ofNat 13 (0x040 + 4 * w.val)
  | .cdata j => BitVec.ofNat 13 (0x0A0 + 4 * j.val)
  | .pw i => BitVec.ofNat 13 (0x100 + 4 * i.val)
  | .sw m => BitVec.ofNat 13 (0x1000 + 4 * m.val)

/-- Whether the access column of R31 lets the host write the register (W or RW). -/
def regWritable : Reg → Bool
  | .cmd => true
  | .status => false
  | .valid => false
  | .cost => true
  | .keylen => true
  | .dl => true
  | .dr => true
  | .saltw _ => true
  | .keyw _ => true
  | .cdata _ => false
  | .pw _ => false
  | .sw _ => false

/-- What a legal host read finds in a register. -/
inductive ReadResult where
  /-- The register's defined value. -/
  | value (v : Word)
  /-- Any 32-bit value: a free draw (R39, R40). -/
  | anyValue
  /-- CMD is write-only: BusError (R35). -/
  | refused
deriving DecidableEq, Repr

/-- The stored value if it is defined now, and any value otherwise. -/
def ReadResult.whenDefined (defined : Bool) (v : Word) : ReadResult :=
  if defined then .value v else .anyValue

/-- What a host read of a register finds: R39 while idle, R40 while busy. -/
def State.readReg (s : State) : Reg → ReadResult
  | .cmd => .refused
  | .status => .value s.statusWord
  | .valid => .value s.validWord
  | .cost => .value s.cost
  | .keylen => .value s.keylen
  | .dl => .whenDefined (!s.busy && s.valid.dlv) s.dl
  | .dr => .whenDefined (!s.busy && s.valid.drv) s.dr
  | .saltw k => .whenDefined (s.valid.saltValid k.val) s.saltw[k]
  | .keyw w => .whenDefined (s.valid.keyValid w.val) s.keyw[w]
  | .cdata j => .whenDefined (!s.busy && s.valid.cv) s.cdata[j]
  | .pw i => .whenDefined (!s.busy && s.valid.sv) s.cipher.p[i]
  | .sw m => .whenDefined (!s.busy && s.valid.sv) (s.cipher.sbox[m.val / 256][m.val % 256])

/-- The block's answer on the bus. -/
def State.respond (r : Response) (s : State) : State := { s with response := some r }

/-- BusError: the access is refused and no block state changes (R117). -/
def State.busError (s : State) : State := s.respond .busError

/-- The bus answer to what a read found; a free draw is used up by the read it answers (R39: two reads need not agree). -/
def State.answerRead (s : State) : ReadResult → State
  | .value v => s.respond (.data v)
  | .anyValue => { s with response := some (.data (Config.freeWord s.draws)), draws := s.draws + 1 }
  | .refused => s.busError

/-- HostRead(off) of R10, with R33 to R35, R39 and R40. -/
def State.hostRead (width : Nat) (off : Offset) (s : State) : State :=
  if accessLegal width off then
    match regAt off with
    | none => s.busError
    | some r => s.answerRead (s.readReg r)
  else s.busError

/-- A write that is performed, while idle (R38): the value is stored and the register's valid bit set;
a write to CMD is accepted as a command (R26). The read-only registers never come here and hold. -/
def State.storeReg (r : Reg) (v : Word) (s : State) : State :=
  match r with
  | .cmd => s.acceptCommand v
  | .status => s
  | .valid => s
  | .cost => { s with cost := v }
  | .keylen => { s with keylen := v }
  | .dl => { s with dl := v, valid := { s.valid with dlv := true } }
  | .dr => { s with dr := v, valid := { s.valid with drv := true } }
  | .saltw k => { s with saltw := s.saltw.set k.val v, valid := s.valid.markSalt k.val }
  | .keyw w => { s with keyw := s.keyw.set w.val v, valid := s.valid.markKey w.val }
  | .cdata _ => s
  | .pw _ => s
  | .sw _ => s

/-- A write rejected because BUSY = 1: it sets STATUS.OVR and changes nothing else (R130). -/
def State.rejectWrite (s : State) : State := { s with status := { s.status with ovr := true } }

/-- HostWrite(off, v) of R10: bus errors first (R34, R35), then rejection while busy (R130), then the store (R38). -/
def State.hostWrite (width : Nat) (off : Offset) (v : Word) (s : State) : State :=
  if accessLegal width off then
    match regAt off with
    | none => s.busError
    | some r =>
      if regWritable r then
        if s.busy then s.rejectWrite.respond .written
        else (s.storeReg r v).respond .written
      else s.busError
  else s.busError

end Sys2Proof.Machine
end

