-- ==== Sys2Proof/Machine/Sequencer.lean ====
section
/-! DEFINITION. What one event does, and which event comes next: the two agents of R13 and the reset input. -/

namespace Sys2Proof.Machine

/-- The running command completes: the word is decoded as in R56 and the command has its one atomic effect (R29, U22);
a word that is no command raises Error(ILLEGAL) (R48, R50, R100). An idle sequencer has nothing to complete. -/
def State.completeCommand (s : State) : Host.Outcome State Fault Refusal :=
  match s.sequencer with
  | .idle => .next s
  | .running w =>
    match decode w with
    | .ok i => exec i s
    | .error _ => .next (s.raiseError .illegal)

/-- One event takes effect, whole (R37, R108, R124). -/
def State.applyEvent (e : Event) (s : State) : Host.Outcome State Fault Refusal :=
  match e with
  | .read width off => .next (s.hostRead width off)
  | .write width off v => .next (s.hostWrite width off v)
  | .complete => s.completeCommand
  | .reset => .next s.resetInput

/-- The next event leaves the schedule and takes effect.
When no event is left the running command completes: completion eventually happens (R134). An idle block then stays
as it is (R122). -/
def State.advance (s : State) : Host.Outcome State Fault Refusal :=
  match s.events with
  | [] => s.completeCommand
  | e :: rest => State.applyEvent e { s with events := rest }

/-- The schedule with the completion of the running command first; where nothing is left to come, that is so already. -/
def completionFirst : List Event → List Event
  | [] => []
  | e :: rest => .complete :: e :: rest

/-- The word of a table row accepted as the running command, its completion the next event.
The block fetches nothing (R44): a command reaches it as a host write to CMD, and this stands for that write. -/
def State.placeCommand (s : State) (nbits w : Nat) : State :=
  match commandWordOfTable nbits w with
  | none => s
  | some v => { s.acceptCommand v with events := completionFirst s.events }

end Sys2Proof.Machine
end

