-- ==== Sys2Proof/Machine/Step.lean ====
section
/-! DEFINITION. One step of the machine, and where the host of this package places a command word. -/

namespace Sys2Proof.Machine

/-- One step: the next event of the schedule takes effect (R108). -/
def step (s : State) : Host.Outcome State Fault Refusal := s.advance

/-- s with the command word of a table row accepted, so that the next step completes it. -/
def State.withFetchWord (s : State) (nbits w : Nat) : State := s.placeCommand nbits w

end Sys2Proof.Machine
end

