-- ==== Sys2Proof/Machine/HostProgram.lean ====
section
/-! DEFINITION. The other agent of R13: a host that runs a program in the assembly of R53, its pseudo-instructions (R54),
and the hash sequence of R87. The block's step does not use this file: each host access reaches the block as an `Event`. -/

namespace Sys2Proof.Machine

/-- The statements of R53. A field of `bnz` is the mask of its bits in the register. -/
inductive HostStmt where
  /-- `wr NAME, imm32` -/
  | wr (r : Reg) (v : Word)
  /-- `rd NAME` -/
  | rd (r : Reg)
  /-- `expect NAME, imm32` -/
  | expect (r : Reg) (v : Word)
  /-- `name:` -/
  | label (name : String)
  /-- `bnz NAME.FIELD, name` -/
  | bnz (r : Reg) (field : Word) (name : String)
deriving DecidableEq, Repr

/-- Where a host program stands. -/
structure HostRun where
  /-- The statement to perform next. -/
  pc : Nat
  /-- The observations of `rd`, `expect` and `bnz`, the latest first. -/
  seen : List Word
  /-- How many `expect` statements found another value. -/
  mismatches : Nat
  /-- The host has stopped at a bus error. -/
  trapped : Bool
deriving DecidableEq, Repr

/-- A program about to start. -/
def HostRun.start : HostRun := ⟨0, [], 0, false⟩

/-- The bus access a statement makes, by the offset of its register (R53). -/
def hostAccess : HostStmt → Option Event
  | .wr r v => some (.write 32 (regOffset r) v)
  | .rd r => some (.read 32 (regOffset r))
  | .expect r _ => some (.read 32 (regOffset r))
  | .label _ => none
  | .bnz r _ _ => some (.read 32 (regOffset r))

/-- The statement a label names: the nearest at or before the branch, else the first after it
(R54 writes the branch of `wait` as "1b", backwards). -/
def labelTarget (prog : List HostStmt) (pc : Nat) (name : String) : Option Nat :=
  match ((prog.take (pc + 1)).reverse).findIdx? (· == .label name) with
  | some i => some (pc - i)
  | none => prog.findIdx? (· == .label name)

/-- What the host does with the value a read returned; only `bnz` may leave the straight line.
DESIGN CHOICE (log entry 13): R53 does not say where a `bnz` goes whose label names no statement of the program;
here it goes on with the next statement. -/
def HostRun.afterRead (prog : List HostStmt) (h : HostRun) (st : HostStmt) (v : Word) : HostRun :=
  let h' := { h with pc := h.pc + 1, seen := v :: h.seen }
  match st with
  | .expect _ want => if v = want then h' else { h' with mismatches := h.mismatches + 1 }
  | .bnz _ field name =>
    if v &&& field ≠ 0 then { h' with pc := (labelTarget prog h.pc name).getD (h.pc + 1) } else h'
  | .wr _ _ => h'
  | .rd _ => h'
  | .label _ => h'

/-- The host performs its next statement. `traps` is HOST_BUS_ERROR (R117): whether a bus error stops this host.
DESIGN CHOICE (log entry 13): R53 does not say what becomes of an `rd`, `expect` or `bnz` whose read is answered by BusError
in a host that goes on; here it makes no observation, counts no mismatch, does not branch, and the next statement follows. -/
def hostTurn (traps : Bool) (prog : List HostStmt) (hs : HostRun × State) :
    Host.Outcome (HostRun × State) Fault Refusal :=
  let (h, s) := hs
  if h.trapped then .next (h, s)
  else
    match prog[h.pc]? with
    | none => .next (h, s)
    | some st =>
      match hostAccess st with
      | none => .next ({ h with pc := h.pc + 1 }, s)
      | some e =>
        match State.applyEvent e s with
        | .fault r => .fault r
        | .refused r => .refused r
        | .next s' =>
          match s'.response with
          | some (.data v) => .next (h.afterRead prog st v, s')
          | some .busError => .next ({ h with pc := h.pc + 1, trapped := traps }, s')
          | some .written => .next ({ h with pc := h.pc + 1 }, s')
          | none => .next ({ h with pc := h.pc + 1 }, s')

/-- Whose turn it is (R108: either order is admitted). -/
inductive Turn where
  | host
  | completion
deriving DecidableEq, Repr

/-- A host program and the block under a schedule of turns. -/
def runTurns (traps : Bool) (prog : List HostStmt) :
    List Turn → HostRun × State → Host.Outcome (HostRun × State) Fault Refusal
  | [], hs => .next hs
  | .host :: rest, hs =>
    match hostTurn traps prog hs with
    | .next hs' => runTurns traps prog rest hs'
    | .fault r => .fault r
    | .refused r => .refused r
  | .completion :: rest, (h, s) =>
    match s.completeCommand with
    | .next s' => runTurns traps prog rest (h, s')
    | .fault r => .fault r
    | .refused r => .refused r

/-- `cmd OPNAME` (R54). -/
def cmdStmts (i : Instr) : List HostStmt := [.wr .cmd (encode i)]

/-- `wait` (R54): read STATUS until BUSY = 0. -/
def waitStmts : List HostStmt := [.label "1", .bnz .status 1 "1"]

/-- `run OPNAME` (R54). -/
def runStmts (i : Instr) : List HostStmt := cmdStmts i ++ waitStmts

/-- The word be32(b4w, b4w+1, b4w+2, b4w+3) of a byte string, bytes past its end as 0x00 (R54). -/
def packWord (bytes : List Byte) (w : Nat) : Word :=
  be32 (bytes.getD (4 * w) 0) (bytes.getD (4 * w + 1) 0) (bytes.getD (4 * w + 2) 0) (bytes.getD (4 * w + 3) 0)

/-- `loadkey b0 .. b(n-1)` (R54): KEYLEN, then the key words the n bytes reach.
DESIGN CHOICE (log entry 13): for more than 72 bytes R54 names words past KEYW17, which R31 does not have. Here KEYLEN is
written as n all the same and the words past KEYW17 are left out; a host that follows R83 hands over no such key. -/
def loadKeyStmts (key : List Byte) : List HostStmt :=
  .wr .keylen (BitVec.ofNat 32 key.length) ::
    ((List.finRange 18).filter fun w => w.val < (key.length + 3) / 4).map fun w =>
      .wr (.keyw w) (packWord key w.val)

/-- `loadsalt b0 .. b15` (R54, R85).
DESIGN CHOICE (log entry 13): R54 has no `loadsalt` of another length than 16; here bytes past b15 are left out and missing
ones are written as 0x00. -/
def loadSaltStmts (salt : List Byte) : List HostStmt :=
  (List.finRange 4).map fun k => .wr (.saltw k) (packWord salt k.val)

/-- The operand writes of R87, up to and with the write of CMD. -/
def hashStart (key salt : List Byte) (cost : Word) : List HostStmt :=
  loadKeyStmts key ++ loadSaltStmts salt ++ [.wr .cost cost] ++ cmdStmts .bcrypt

/-- The results the hash sequence reads: STATUS, then CDATA0 to CDATA5 (R87). -/
def hashResults : List HostStmt := .rd .status :: (List.finRange 6).map fun j => .rd (.cdata j)

/-- The hash sequence HASH(key, salt, cost) of R87. -/
def hashSequence (key salt : List Byte) (cost : Word) : List HostStmt :=
  hashStart key salt cost ++ waitStmts ++ hashResults

/-- The 23-byte digest of R86: byte j of CDATA in big-endian position, byte 23 discarded. -/
def digestBytes (cdata : Vector Word 6) : List Byte :=
  (List.range 23).map fun j => bigEndianByte (cdata[j / 4]?.getD 0) (j % 4)

end Sys2Proof.Machine
end

