-- ==== Sys2Proof/Machine/HostSoftware.lean ====
section
/-! DEFINITION. The software around the block (45_host_sequences.md): key preparation, the base64 codec, the hash string,
hashpw, checkpw and gensalt. R5 puts the codec, the format and the engine outside the block; they are here so that the
block's results can be read as the strings the spec gives. The block's step does not use this file. -/

namespace Sys2Proof.Machine

/-- The five version tags (R2, R94). -/
inductive VersionTag where
  | v2
  | v2a
  | v2b
  | v2x
  | v2y
deriving DecidableEq, Repr

/-- Why host software gives no result. -/
inductive HostError where
  /-- invalid-argument of the source (R89, R90, R93, R112). -/
  | invalidArgument
  /-- invalid-format of the source (R91). -/
  | invalidFormat
  /-- LEGACY_VARIANT_MODE: tag 2x, or tag 2a with a key byte of 0x80 or above (R97). -/
  | legacyRefused
  /-- The empty key of tag 2 (R84). -/
  | emptyKey
  /-- STATUS.ERR was 1 after the command: no hash is produced (R87). -/
  | commandFailed (statusWord : Word)
  /-- The run of the hash sequence did not end in seven readings. -/
  | noAnswer
deriving DecidableEq, Repr

/-- Whether the host appends the terminator byte 0x00 (R82, R94). -/
def VersionTag.terminated : VersionTag → Bool
  | .v2 => false
  | .v2a => true
  | .v2b => true
  | .v2x => true
  | .v2y => true

/-- The requests R97 refuses; the bytes are those before the terminator.
DESIGN CHOICE (log entry 11): of tag 2a only the first 72 bytes are looked at. R97 speaks of key bytes, R23 numbers those
0 to 71, and R82 cuts the rest away; but "the bytes of rule R82, before the terminator" could also mean all of them. -/
def legacyVariant (tag : VersionTag) (bytes : List Byte) : Bool :=
  match tag with
  | .v2x => true
  | .v2a => (bytes.take 72).any fun b => decide (0x80 ≤ b.toNat)
  | .v2 => false
  | .v2b => false
  | .v2y => false

/-- Key preparation: the terminator by tag, then the cut to 72 bytes (R82, R83), with the refusals of R84 and R97. -/
def prepareKey (tag : VersionTag) (bytes : List Byte) : Except HostError (List Byte) :=
  if legacyVariant tag bytes then .error .legacyRefused
  else
    let key := (if tag.terminated then bytes ++ [0] else bytes).take 72
    if key = [] then .error .emptyKey else .ok key

/-- The codec alphabet of R88. -/
def alphabet : List Char :=
  "./ABCDEFGHIJKLMNOPQRSTUVWXYZabcdefghijklmnopqrstuvwxyz0123456789".toList

/-- idx(c) of R88, none for -1. -/
def alphabetIndex (c : Char) : Option Nat := alphabet.findIdx? (· == c)

/-- The character of a six-bit group. -/
def alphabetChar (n : Nat) : Char := alphabet.getD n '.'

/-- The groups of R89: three bytes give four characters, a last one or two give two or three. -/
def encodeGroups : List Byte → List Char
  | [] => []
  | [g0] => [alphabetChar (g0.toNat / 4), alphabetChar (g0.toNat % 4 * 16)]
  | [g0, g1] =>
    [alphabetChar (g0.toNat / 4), alphabetChar (g0.toNat % 4 * 16 + g1.toNat / 16),
      alphabetChar (g1.toNat % 16 * 4)]
  | g0 :: g1 :: g2 :: rest =>
    [alphabetChar (g0.toNat / 4), alphabetChar (g0.toNat % 4 * 16 + g1.toNat / 16),
      alphabetChar (g1.toNat % 16 * 4 + g2.toNat / 64), alphabetChar (g2.toNat % 64)] ++ encodeGroups rest

/-- encode(b, len) of R89. -/
def encode64 (b : List Byte) (len : Int) : Except HostError (List Char) :=
  if len ≤ 0 ∨ (b.length : Int) < len then .error .invalidArgument
  else .ok (encodeGroups (b.take len.toNat))

/-- The bytes of a run of six-bit values; a byte appears only when both of its values are there (R90). -/
def decodeGroups : List Nat → List Byte
  | [] => []
  | [_] => []
  | [a, b] => [BitVec.ofNat 8 (a * 4 + b / 16)]
  | [a, b, c] => [BitVec.ofNat 8 (a * 4 + b / 16), BitVec.ofNat 8 (b % 16 * 16 + c / 4)]
  | a :: b :: c :: d :: rest =>
    [BitVec.ofNat 8 (a * 4 + b / 16), BitVec.ofNat 8 (b % 16 * 16 + c / 4), BitVec.ofNat 8 (c % 4 * 64 + d)]
      ++ decodeGroups rest

/-- decode(text, maxBytes) of R90: it stops at the first character outside the alphabet. -/
def decode64 (text : List Char) (maxBytes : Int) : Except HostError (List Byte) :=
  if maxBytes ≤ 0 then .error .invalidArgument
  else
    let valid := text.takeWhile fun c => (alphabetIndex c).isSome
    .ok ((decodeGroups (valid.filterMap alphabetIndex)).take maxBytes.toNat)

/-- A parsed hash string (R91): the digest text is empty in a salt-only string. -/
structure HashString where
  tag : VersionTag
  cost : Nat
  salt : List Byte
  digestText : List Char
deriving DecidableEq, Repr

/-- The text of a version tag (R91). -/
def VersionTag.text : VersionTag → List Char
  | .v2 => ['2']
  | .v2a => ['2', 'a']
  | .v2b => ['2', 'b']
  | .v2x => ['2', 'x']
  | .v2y => ['2', 'y']

/-- The tag a text names; any other text is invalid (R91). -/
def parseTag (t : List Char) : Except HostError VersionTag :=
  match t with
  | ['2'] => .ok .v2
  | ['2', 'a'] => .ok .v2a
  | ['2', 'b'] => .ok .v2b
  | ['2', 'x'] => .ok .v2x
  | ['2', 'y'] => .ok .v2y
  | _ => .error .invalidFormat

/-- Exactly two ASCII digits in [4, 31] (R91). -/
def parseCost (t : List Char) : Except HostError Nat :=
  match t with
  | [a, b] =>
    if a.isDigit && b.isDigit then
      let n := (a.toNat - 48) * 10 + (b.toNat - 48)
      if 4 ≤ n ∧ n ≤ 31 then .ok n else .error .invalidFormat
    else .error .invalidFormat
  | _ => .error .invalidFormat

/-- The text before the next '$', and the text after it. -/
def splitDollar (t : List Char) : Except HostError (List Char × List Char) :=
  match t.dropWhile (· != '$') with
  | '$' :: rest => .ok (t.takeWhile (· != '$'), rest)
  | _ => .error .invalidFormat

/-- `$<ver>$<cc>$<salt22><digest31?>` (R91). -/
def parseHashString (text : List Char) : Except HostError HashString :=
  match text with
  | '$' :: t => do
    let (ver, t) ← splitDollar t
    let tag ← parseTag ver
    let (cc, t) ← splitDollar t
    let cost ← parseCost cc
    let salt ← decode64 (t.take 22) 16
    if salt.length = 16 then .ok ⟨tag, cost, salt, t.drop 22⟩ else .error .invalidFormat
  | _ => .error .invalidFormat

/-- The two decimal digits of a cost (R91). -/
def costText (cost : Nat) : List Char := [Char.ofNat (48 + cost / 10 % 10), Char.ofNat (48 + cost % 10)]

/-- Serialization of R91. -/
def serializeHash (tag : VersionTag) (cost : Nat) (salt digest : List Byte) : Except HostError (List Char) := do
  let saltText ← encode64 salt 16
  let digestText ← if digest = [] then .ok [] else encode64 digest 23
  .ok (['$'] ++ tag.text ++ ['$'] ++ costText cost ++ ['$'] ++ saltText ++ digestText)

/-- The hash sequence of R87 on a block: the operand writes, the completion, one reading of the poll, the results. -/
def runHash (s : State) (key salt : List Byte) (cost : Nat) : Except HostError (List Byte) :=
  let c := BitVec.ofNat 32 cost
  let turns := List.replicate (hashStart key salt c).length Turn.host ++ [Turn.completion]
    ++ List.replicate (waitStmts ++ hashResults).length Turn.host
  match runTurns true (hashSequence key salt c) turns (.start, s) with
  | .next (h, _) =>
    match h.seen.reverse with
    | [_, st, c0, c1, c2, c3, c4, c5] =>
      if st.getLsbD 2 then .error (.commandFailed st)
      else .ok (digestBytes #v[c0, c1, c2, c3, c4, c5])
    | _ => .error .noAnswer
  | .fault _ => .error .noAnswer
  | .refused _ => .error .noAnswer

/-- hashpw on the password's bytes: version, cost and salt come from the string and its digest is ignored (R92). -/
def hashpwBytes (s : State) (password : List Byte) (saltText : List Char) : Except HostError (List Char) := do
  let h ← parseHashString saltText
  let key ← prepareKey h.tag password
  let digest ← runHash s key h.salt h.cost
  serializeHash h.tag h.cost h.salt digest

/-- hashpw on the password's text, through TEXT_ENCODING (R82). -/
def hashpw (s : State) (password : String) (saltText : List Char) : Except HostError (List Char) :=
  hashpwBytes s (Config.textEncoding password) saltText

/-- equals(a, b) of R92: every position of the longer operand is looked at, differences are OR-ed together, and the
lengths are folded in. -/
def equalsFull (a b : List Char) : Bool :=
  let n := max a.length b.length
  let diff := (List.range n).foldl
    (fun acc i => acc ||| ((a[i]?.map Char.toNat).getD 0 ^^^ (b[i]?.map Char.toNat).getD 0))
    (a.length ^^^ b.length)
  diff == 0

/-- checkpw of R92: a malformed stored string raises, it does not answer false. -/
def checkpw (s : State) (password : String) (stored : List Char) : Except HostError Bool := do
  let computed ← hashpw s password stored
  .ok (equalsFull computed stored)

/-- gensalt of R93, on the sixteen random bytes the host drew; its cost is 10 where the caller gives none. -/
def gensalt (random : List Byte) (cost : Nat := 10) : Except HostError (List Char) :=
  if 4 ≤ cost ∧ cost ≤ 31 then serializeHash .v2a cost random [] else .error .invalidArgument

end Sys2Proof.Machine
end

