-- ==== Sys2Proof/Machine/System.lean ====
section
/-! DEFINITION. Several blocks in one system (R120), and where the platform maps them (R31). -/

namespace Sys2Proof.Machine

/-- One block and its BASE, the address of its window, which the platform chooses (R31, R120). -/
structure Mapped where
  base : Nat
  block : State
deriving DecidableEq, Repr

/-- N_INSTANCES blocks: the length of the list, at least 1 (R7, R120). Block k is the k-th of the list. -/
structure System where
  blocks : List Mapped
  nonempty : 1 ≤ blocks.length
deriving DecidableEq, Repr

/-- The offset an address has in a block's window; none outside it, where the block is not concerned (R31). -/
def Mapped.offsetOf (m : Mapped) (addr : Nat) : Option Offset :=
  if m.base ≤ addr ∧ addr < m.base + 0x2000 then some (BitVec.ofNat 13 (addr - m.base)) else none

/-- Block k takes one step; no other block is touched (R120). A number that names no block moves none. -/
def System.stepBlock (sys : System) (k : Nat) : Host.Outcome System Fault Refusal :=
  match sys.blocks[k]? with
  | none => .next sys
  | some m =>
    match step m.block with
    | .next t => .next ⟨sys.blocks.set k { m with block := t }, by simpa using sys.nonempty⟩
    | .fault r => .fault r
    | .refused r => .refused r

/-- A host access at an address joins the schedule of the first block whose window holds it, after what it holds already
(R41: accesses take effect in the order they are issued). -/
def issueTo : List Mapped → Nat → (Offset → Event) → List Mapped
  | [], _, _ => []
  | m :: rest, addr, access =>
    match m.offsetOf addr with
    | some off => { m with block := { m.block with events := m.block.events ++ [access off] } } :: rest
    | none => m :: issueTo rest addr access

theorem issueTo_length (blocks : List Mapped) (addr : Nat) (access : Offset → Event) :
    (issueTo blocks addr access).length = blocks.length := by
  induction blocks with
  | nil => rfl
  | cons m rest ih =>
    unfold issueTo
    split
    · rfl
    · simp [ih]

/-- A host access at an address of the system (R31, R41, R120). -/
def System.issue (sys : System) (addr : Nat) (access : Offset → Event) : System :=
  ⟨issueTo sys.blocks addr access, (issueTo_length sys.blocks addr access).symm ▸ sys.nonempty⟩

end Sys2Proof.Machine
end

