-- ==== Sys2Proof/Safety.lean ====
section
/-! DEFINITION. What the claims speak of: operands a command may use, the errors that apply to a command, the consistency
of STATUS and VALID, and when two states differ only in words the spec calls unspecified. -/

namespace Sys2Proof.Machine

/-- COST is in [4, 31] (R71). -/
abbrev State.CostValid (s : State) : Prop := 4 ≤ s.cost.toNat ∧ s.cost.toNat ≤ 31

/-- KEYLEN is in [1, 72] (R21). -/
abbrev State.KeylenValid (s : State) : Prop := 1 ≤ s.keylen.toNat ∧ s.keylen.toNat ≤ 72

/-- Every key word below ceil(KEYLEN/4) has been written since reset (R103). -/
abbrev State.KeyWritten (s : State) : Prop :=
  ∀ w : Fin 18, w.val < (s.keylen.toNat + 3) / 4 → s.valid.keyv.getLsbD w.val = true

/-- All four salt words have been written since reset (R103). -/
abbrev State.SaltWritten (s : State) : Prop := ∀ k : Fin 4, s.valid.saltv.getLsbD k.val = true

/-- DL and DR have been written since reset (R103). -/
abbrev State.BlockWritten (s : State) : Prop := s.valid.dlv = true ∧ s.valid.drv = true

/-- P and S have been seeded since reset (R17). -/
abbrev State.Seeded (s : State) : Prop := s.valid.sv = true

/-- The errors that apply to a command on a state, by the column "raised by" of R99 and by R101 to R104.
ILLEGAL applies to words that are no command, and OK is no error. -/
def Applies (i : Instr) (s : State) : ErrCode → Prop
  | .ok => False
  | .illegal => False
  | .cost => (i = .eksLoop ∨ i = .bcrypt) ∧ ¬ s.CostValid
  | .keylen => (i = .expand0Key ∨ i = .expandKeySalt ∨ i = .eksLoop ∨ i = .bcrypt) ∧ ¬ s.KeylenValid
  | .uninit =>
    (i = .encrypt ∧ ¬ s.BlockWritten)
      ∨ ((i = .expand0Salt ∨ i = .expandKeySalt ∨ i = .eksLoop ∨ i = .bcrypt) ∧ ¬ s.SaltWritten)
      ∨ ((i = .expand0Key ∨ i = .expandKeySalt ∨ i = .eksLoop ∨ i = .bcrypt) ∧ ¬ s.KeyWritten)
  | .nostate => (i ≠ .init ∧ i ≠ .bcrypt) ∧ ¬ s.Seeded

/-- The place of an error in the order of R105, the first to be reported lowest. -/
def priority : ErrCode → Nat
  | .ok => 0
  | .illegal => 1
  | .cost => 2
  | .keylen => 3
  | .uninit => 4
  | .nostate => 5

/-- The word is no command: RSVD is not zero, or OP is 0x00 or 0x09 to 0xFF (R100). -/
abbrev IllegalWord (w : Word) : Prop :=
  w.extractLsb' 8 24 ≠ 0 ∨ w.extractLsb' 0 8 = 0 ∨ 0x09 ≤ (w.extractLsb' 0 8).toNat

/-- The next event is the completion of the running command word w. -/
def State.Completes (s : State) (w : Word) : Prop :=
  s.sequencer = .running w ∧ (s.events = [] ∨ s.events.head? = some .complete)

/-- The next event is the completion of the running command i. -/
def State.CompletesCommand (s : State) (i : Instr) : Prop := ∃ w, s.Completes w ∧ decode w = .ok i

/-- The next event is the reset input. -/
abbrev State.ResetNext (s : State) : Prop := s.events.head? = some .reset

/-- STATUS and VALID tell one story (R17, R25, R27, R110, R111):
ERR goes with a nonzero ERRCODE; an error leaves DONE and STICKY set; CDATA is valid only in a seeded block;
while a command runs DONE is 0 and LASTOP is its opcode byte; and a block that is idle with DONE = 0 has run nothing
since reset. -/
def State.Consistent (s : State) : Prop :=
  (s.status.err = true ↔ s.status.errcode ≠ .ok)
    ∧ (s.status.err = true → s.status.done = true ∧ s.status.sticky = true)
    ∧ (s.valid.cv = true → s.valid.sv = true)
    ∧ (∀ w, s.sequencer = .running w → s.status.done = false ∧ s.status.lastop = w.extractLsb' 0 8)
    ∧ (s.sequencer = .idle → s.status.done = false →
        s.statusWord = 0 ∧ s.valid.sv = false ∧ s.valid.cv = false)

/-- s and t agree wherever the spec gives a value: they may differ only in words whose valid bit is 0 (R39, R103). -/
def State.Agree (s t : State) : Prop :=
  s.cost = t.cost ∧ s.keylen = t.keylen ∧ s.status = t.status ∧ s.valid = t.valid
    ∧ s.sequencer = t.sequencer ∧ s.events = t.events ∧ s.response = t.response ∧ s.draws = t.draws
    ∧ (s.valid.sv = true → s.cipher = t.cipher)
    ∧ (s.valid.cv = true → s.cdata = t.cdata)
    ∧ (s.valid.dlv = true → s.dl = t.dl)
    ∧ (s.valid.drv = true → s.dr = t.dr)
    ∧ (∀ k : Fin 4, s.valid.saltv.getLsbD k.val = true → s.saltw[k] = t.saltw[k])
    ∧ (∀ w : Fin 18, s.valid.keyv.getLsbD w.val = true → s.keyw[w] = t.keyw[w])

/-- Every bit that only reset clears and that is set in s is set in t (R126). -/
def StickyBitsKept (s t : State) : Prop :=
  (s.status.sticky = true → t.status.sticky = true)
    ∧ (s.status.ovr = true → t.status.ovr = true)
    ∧ (s.valid.sv = true → t.valid.sv = true)
    ∧ (s.valid.cv = true → t.valid.cv = true)
    ∧ (s.valid.dlv = true → t.valid.dlv = true)
    ∧ (s.valid.drv = true → t.valid.drv = true)
    ∧ (∀ k : Fin 4, s.valid.saltv.getLsbD k.val = true → t.valid.saltv.getLsbD k.val = true)
    ∧ (∀ w : Fin 18, s.valid.keyv.getLsbD w.val = true → t.valid.keyv.getLsbD w.val = true)

/-- The offsets a host may write, by the access column of R31: CMD, COST, KEYLEN, DL, DR, SALTW and KEYW. -/
abbrev WritableOffset (off : Offset) : Prop :=
  off.toNat % 4 = 0
    ∧ (off.toNat = 0x000 ∨ (0x00C ≤ off.toNat ∧ off.toNat ≤ 0x018)
      ∨ (0x020 ≤ off.toNat ∧ off.toNat ≤ 0x02C) ∨ (0x040 ≤ off.toNat ∧ off.toNat ≤ 0x084))

/-- The offsets a host may read, by the access column of R31: every register but CMD. -/
abbrev ReadableOffset (off : Offset) : Prop :=
  off.toNat % 4 = 0
    ∧ ((0x004 ≤ off.toNat ∧ off.toNat ≤ 0x018)
      ∨ (0x020 ≤ off.toNat ∧ off.toNat ≤ 0x02C) ∨ (0x040 ≤ off.toNat ∧ off.toNat ≤ 0x084)
      ∨ (0x0A0 ≤ off.toNat ∧ off.toNat ≤ 0x0B4) ∨ (0x100 ≤ off.toNat ∧ off.toNat ≤ 0x144)
      ∨ 0x1000 ≤ off.toNat)

end Sys2Proof.Machine
end

