-- ==== Sys2Proof/Certificates/Slice0/Obligations.lean ====
section
/-! DEFINITION. The statements for the provers, rule by rule.
In every statement about a next state the record on the right is the WHOLE next state: what it does not name is as before. -/

open Sys2Proof Sys2Proof.Machine

/-! ### Encoding (30_encoding.md) -/

/-- R49, R56: every well-formed command is decoded from its word, and from no other word. -/
def Obligations.DecodeAcceptsExactlyEncodings : Prop :=
  ∀ i : Instr, i.wellFormed = true →
    decode (encode i) = .ok i ∧ ∀ w : Word, decode w = .ok i → w = encode i

/-- R49: the eight command words, written out, and three words that are no command. -/
def Obligations.OpcodeMapWordsDecode : Prop :=
  decode 0x00000001#32 = .ok .init ∧ decode 0x00000002#32 = .ok .encrypt
    ∧ decode 0x00000003#32 = .ok .expand0Key ∧ decode 0x00000004#32 = .ok .expand0Salt
    ∧ decode 0x00000005#32 = .ok .expandKeySalt ∧ decode 0x00000006#32 = .ok .eksLoop
    ∧ decode 0x00000007#32 = .ok .digest ∧ decode 0x00000008#32 = .ok .bcrypt
    ∧ decode 0x00000000#32 = .error .reservedOp ∧ decode 0x00000009#32 = .error .reservedOp
    ∧ decode 0x00000101#32 = .error .reservedBits

/-- R48, R100: a word written to CMD of an idle block and completed next reports ILLEGAL exactly when its RSVD field is
not zero or its OP is reserved; LASTOP records its bits 7:0 either way; and an illegal word changes nothing but STATUS
(of the model's own fields, the schedule loses the two events and the bus answer is left open here). -/
def Obligations.IllegalWordReportsIllegal : Prop :=
  ∀ (s : State) (w : Word) (rest : List Event), s.sequencer = .idle →
    s.events = .write 32 0x000 w :: .complete :: rest →
    ∃ m t, step s = .next m ∧ step m = .next t
      ∧ t.status.lastop = w.extractLsb' 0 8
      ∧ (t.status.errcode = .illegal ↔ IllegalWord w)
      ∧ (IllegalWord w → t =
          { s with
            events := rest
            response := t.response
            status :=
              { s.status with
                done := true, err := true, errcode := .illegal, sticky := true, lastop := w.extractLsb' 0 8 } })

/-! ### Blowfish core (40_blowfish_core.md) -/

/-- R57: F by bytes, the most significant byte indexing S[0], and the rule's two worked values. -/
def Obligations.RoundFunctionFormula : Prop :=
  (∀ (x : Cipher) (a b c d : BitVec 8),
    x.roundF (a ++ b ++ c ++ d) =
      ((x.sbox[0][a.toNat] + x.sbox[1][b.toNat]) ^^^ x.sbox[2][c.toNat]) + x.sbox[3][d.toNat])
  ∧ canonicalCipher.roundF 0x00000000 = 0x2FCFF51E
  ∧ canonicalCipher.roundF 0xFFFFFFFF = 0x452C2867

/-- R58: sixteen rounds of L <- L ^ P[i]; R <- R ^ F(L); swap; then the last swap undone and P[16], P[17] in,
and the rule's worked value. -/
def Obligations.EncryptBlockFollowsRounds : Prop :=
  (∀ (c : Cipher) (b : Block), ∃ L R : Nat → Word,
    L 0 = b.left ∧ R 0 = b.right
    ∧ (∀ i : Fin 16, R (i.val + 1) = L i.val ^^^ c.p[i.val]
        ∧ L (i.val + 1) = R i.val ^^^ c.roundF (L i.val ^^^ c.p[i.val]))
    ∧ c.encryptBlock b = ⟨R 16 ^^^ c.p[17], L 16 ^^^ c.p[16]⟩)
  ∧ canonicalCipher.encryptBlock ⟨0, 0⟩ = ⟨0x706D9FCC, 0x1792D23A⟩

/-- R59: with P and S fixed, EncryptBlock is a bijection on 64-bit blocks. -/
def Obligations.EncryptBlockIsBijective : Prop :=
  ∀ c : Cipher, Function.Bijective c.encryptBlock

/-! ### Key schedule (41_key_schedule.md) -/

/-- R64: slot n writes its one pair of entries, the left half at the even index, and no other word. -/
def Obligations.StoreFillsOnePair : Prop :=
  ∀ (c : Cipher) (n : Fin 521) (b : Block),
    (∀ j : Fin 18, (c.store n b).p[j] =
      if n.val = j.val / 2 then (if j.val % 2 = 0 then b.left else b.right) else c.p[j])
    ∧ (∀ (k : Fin 4) (i : Fin 256), (c.store n b).sbox[k][i] =
      if n.val = 9 + 128 * k.val + i.val / 2 then (if i.val % 2 = 0 then b.left else b.right)
      else c.sbox[k][i])

/-- R65, R70(c): the plain pass XORs all of the key stream into P, then runs 521 encryptions, each on the output of the
one before and on the state the last Store left; at the end every word of P and S is the half its slot was given. -/
def Obligations.PlainPassChainsAndRewritesAll : Prop :=
  ∀ (c : Cipher) (kw : Vector Word 18), ∃ (C : Nat → Cipher) (B : Nat → Block),
    (∀ i : Fin 18, (C 0).p[i] = c.p[i] ^^^ kw[i]) ∧ (C 0).sbox = c.sbox ∧ B 0 = ⟨0, 0⟩
    ∧ (∀ n : Fin 521, B (n.val + 1) = (C n.val).encryptBlock (B n.val)
        ∧ C (n.val + 1) = (C n.val).store n (B (n.val + 1)))
    ∧ c.expand0 kw = C 521
    ∧ (∀ j : Fin 18, (c.expand0 kw).p[j] =
        if j.val % 2 = 0 then (B (j.val / 2 + 1)).left else (B (j.val / 2 + 1)).right)
    ∧ (∀ (k : Fin 4) (i : Fin 256), (c.expand0 kw).sbox[k][i] =
        if i.val % 2 = 0 then (B (9 + 128 * k.val + i.val / 2 + 1)).left
        else (B (9 + 128 * k.val + i.val / 2 + 1)).right)

/-- R63, R66: the salted pass, with SW(2n) and SW(2n+1) in the running block before every encryption. -/
def Obligations.SaltedPassChainsAndRewritesAll : Prop :=
  ∀ (c : Cipher) (kw : Vector Word 18) (saltw : Vector Word 4), ∃ (C : Nat → Cipher) (B : Nat → Block),
    (∀ i : Fin 18, (C 0).p[i] = c.p[i] ^^^ kw[i]) ∧ (C 0).sbox = c.sbox ∧ B 0 = ⟨0, 0⟩
    ∧ (∀ n : Fin 521,
        (n.val % 2 = 0 → B (n.val + 1) =
          (C n.val).encryptBlock ⟨(B n.val).left ^^^ saltw[0], (B n.val).right ^^^ saltw[1]⟩)
        ∧ (n.val % 2 = 1 → B (n.val + 1) =
          (C n.val).encryptBlock ⟨(B n.val).left ^^^ saltw[2], (B n.val).right ^^^ saltw[3]⟩)
        ∧ C (n.val + 1) = (C n.val).store n (B (n.val + 1)))
    ∧ c.expandSalted kw saltw = C 521
    ∧ (∀ j : Fin 18, (c.expandSalted kw saltw).p[j] =
        if j.val % 2 = 0 then (B (j.val / 2 + 1)).left else (B (j.val / 2 + 1)).right)
    ∧ (∀ (k : Fin 4) (i : Fin 256), (c.expandSalted kw saltw).sbox[k][i] =
        if i.val % 2 = 0 then (B (9 + 128 * k.val + i.val / 2 + 1)).left
        else (B (9 + 128 * k.val + i.val / 2 + 1)).right)

/-- R70(d): with an all-zero salt the salted pass is the plain pass with the same key. -/
def Obligations.ZeroSaltPassIsPlainPass : Prop :=
  ∀ (c : Cipher) (kw : Vector Word 18), c.expandSalted kw #v[0, 0, 0, 0] = c.expand0 kw

/-- R62, R23, R24: byte t of key-stream word i is key byte (4i + t) mod KEYLEN, in big-endian position, and word i of the
salt's key stream is SALTW[i mod 4]. -/
def Obligations.KeyStreamsRepeatTheirBytes : Prop :=
  ∀ s : State,
    (s.KeylenValid → ∀ (i : Fin 18) (t : Fin 4) (j : Fin 72), j.val = (4 * i.val + t.val) % s.keylen.toNat →
      (kwKey s)[i].extractLsb' (24 - 8 * t.val) 8
        = s.keyw[j.val / 4].extractLsb' (24 - 8 * (j.val % 4)) 8)
    ∧ (∀ i : Fin 18, (kwSalt s)[i] = s.saltw[i.val % 4])

/-- R70(a): keys that repeat to the same 72 bytes leave the same cipher state after EXPAND0_KEY, EXPAND_KEY_SALT, EKS_LOOP
and BCRYPT, run without error on the same cipher state, salt and cost. -/
def Obligations.KeysWithEqualRepetitionAgree : Prop :=
  ∀ (i : Instr) (s t s' t' : State),
    (i = .expand0Key ∨ i = .expandKeySalt ∨ i = .eksLoop ∨ i = .bcrypt) →
    s.cipher = t.cipher → s.saltw = t.saltw → s.cost = t.cost →
    (∀ (n a b : Fin 72), a.val = n.val % s.keylen.toNat → b.val = n.val % t.keylen.toNat →
      s.keyw[a.val / 4].extractLsb' (24 - 8 * (a.val % 4)) 8
        = t.keyw[b.val / 4].extractLsb' (24 - 8 * (b.val % 4)) 8) →
    s.status.err = false → t.status.err = false →
    exec i s = .next s' → exec i t = .next t' →
    s'.status.err = false → t'.status.err = false → s'.cipher = t'.cipher

/-! ### What each command does, on operands it may use -/

/-- R60: INIT, in every state. P and S are the tables of R79 and R80. -/
def Obligations.InitLoadsCanonicalState : Prop :=
  ∀ s : State, exec .init s = .next
    { s with
      cipher := ⟨piP, piS⟩
      valid := { s.valid with sv := true }
      sequencer := .idle
      status := { s.status with done := true } }

/-- R61: ENCRYPT, with DL and DR written and the block seeded. -/
def Obligations.EncryptWritesBothHalves : Prop :=
  ∀ s : State, s.BlockWritten → s.Seeded → exec .encrypt s = .next
    { s with
      dl := (s.cipher.encryptBlock ⟨s.dl, s.dr⟩).left
      dr := (s.cipher.encryptBlock ⟨s.dl, s.dr⟩).right
      sequencer := .idle
      status := { s.status with done := true } }

/-- R67: EXPAND0_KEY is one plain pass with the key stream of the password. -/
def Obligations.ExpandZeroKeyRunsPlainPass : Prop :=
  ∀ s : State, s.KeylenValid → s.KeyWritten → s.Seeded → exec .expand0Key s = .next
    { s with
      cipher := s.cipher.expand0 (kwKey s)
      sequencer := .idle
      status := { s.status with done := true } }

/-- R68: EXPAND0_SALT is one plain pass with the key stream of the salt; KEYLEN and KEYW may be anything. -/
def Obligations.ExpandZeroSaltRunsPlainPass : Prop :=
  ∀ s : State, s.SaltWritten → s.Seeded → exec .expand0Salt s = .next
    { s with
      cipher := s.cipher.expand0 (kwSalt s)
      sequencer := .idle
      status := { s.status with done := true } }

/-- R69: EXPAND_KEY_SALT is one salted pass with the key stream of the password. -/
def Obligations.ExpandKeySaltRunsSaltedPass : Prop :=
  ∀ s : State, s.KeylenValid → s.KeyWritten → s.SaltWritten → s.Seeded → exec .expandKeySalt s = .next
    { s with
      cipher := s.cipher.expandSalted (kwKey s) s.saltw
      sequencer := .idle
      status := { s.status with done := true } }

/-- R72: EKS_LOOP makes 2^COST iterations of Expand0(KW_KEY), then Expand0(KW_SALT). -/
def Obligations.EksLoopIteratesPasswordThenSalt : Prop :=
  ∀ s : State, s.CostValid → s.KeylenValid → s.KeyWritten → s.SaltWritten → s.Seeded →
    ∃ C : Nat → Cipher, C 0 = s.cipher
      ∧ (∀ it, C (it + 1) = ((C it).expand0 (kwKey s)).expand0 (kwSalt s))
      ∧ exec .eksLoop s = .next
        { s with
          cipher := C (2 ^ s.cost.toNat)
          sequencer := .idle
          status := { s.status with done := true } }

/-- R73, R74, R75: DIGEST encrypts each of the three blocks of OrpheanBeholderScryDoubt 64 times, apart from the others,
into CDATA, and sets CV. -/
def Obligations.DigestEncryptsEachBlockSixtyFourTimes : Prop :=
  ∀ s : State, s.Seeded →
    ∃ b0 b1 b2 : Block,
      b0 = s.cipher.encryptBlock^[64] ⟨0x4F727068, 0x65616E42⟩
      ∧ b1 = s.cipher.encryptBlock^[64] ⟨0x65686F6C, 0x64657253⟩
      ∧ b2 = s.cipher.encryptBlock^[64] ⟨0x63727944, 0x6F756274⟩
      ∧ exec .digest s = .next
        { s with
          cdata := #v[b0.left, b0.right, b1.left, b1.right, b2.left, b2.right]
          valid := { s.valid with cv := true }
          sequencer := .idle
          status := { s.status with done := true } }

/-- R76: BCRYPT seeds, makes the salted pass and the 2^COST iterations, and digests; what P and S held is not read. -/
def Obligations.BcryptRunsTheWholeProcedure : Prop :=
  ∀ s : State, s.CostValid → s.KeylenValid → s.KeyWritten → s.SaltWritten →
    ∃ C : Nat → Cipher, C 0 = canonicalCipher.expandSalted (kwKey s) s.saltw
      ∧ (∀ it, C (it + 1) = ((C it).expand0 (kwKey s)).expand0 (kwSalt s))
      ∧ exec .bcrypt s = .next
        { s with
          cipher := C (2 ^ s.cost.toNat)
          cdata := (C (2 ^ s.cost.toNat)).digest
          valid := { s.valid with sv := true, cv := true }
          sequencer := .idle
          status := { s.status with done := true } }

/-- R77: on valid operands BCRYPT leaves the P, S, SV, CDATA and CV that INIT, EXPAND_KEY_SALT, EKS_LOOP and DIGEST leave,
each accepted after the one before has completed; LASTOP is 0x08 against 0x07. -/
def Obligations.BcryptEqualsTheFourCommands : Prop :=
  ∀ s : State, s.CostValid → s.KeylenValid → s.KeyWritten → s.SaltWritten →
    ∃ t t1 t2 t3 t4,
      exec .bcrypt (s.acceptCommand (encode .bcrypt)) = .next t
      ∧ exec .init (s.acceptCommand (encode .init)) = .next t1
      ∧ exec .expandKeySalt (t1.acceptCommand (encode .expandKeySalt)) = .next t2
      ∧ exec .eksLoop (t2.acceptCommand (encode .eksLoop)) = .next t3
      ∧ exec .digest (t3.acceptCommand (encode .digest)) = .next t4
      ∧ t.cipher = t4.cipher ∧ t.cdata = t4.cdata
      ∧ t.valid.sv = t4.valid.sv ∧ t.valid.cv = t4.valid.cv
      ∧ t.status.lastop = 0x08#8 ∧ t4.status.lastop = 0x07#8

/-! ### Errors (60_exceptions.md) -/

/-- R105: a running word that is no command reports ILLEGAL whatever else holds; a command to which errors apply reports
the first of them in the order COST, KEYLEN, UNINIT, NOSTATE; and one to which none applies completes without error. -/
def Obligations.FirstApplicableErrorIsReported : Prop :=
  ∀ (s : State) (w : Word), s.Completes w →
    (IllegalWord w → ∃ t, step s = .next t ∧ t.status.err = true ∧ t.status.errcode = .illegal)
    ∧ (∀ i, decode w = .ok i →
        (∀ e, Applies i s e → (∀ e', Applies i s e' → priority e ≤ priority e') →
          ∃ t, step s = .next t ∧ t.status.err = true ∧ t.status.errcode = e)
        ∧ ((∀ e, ¬ Applies i s e) →
          ∃ t, step s = .next t ∧ t.status.err = s.status.err ∧ t.status.errcode = s.status.errcode))

/-- R106: a completion that raises an error changes nothing but STATUS. -/
def Obligations.ErrorChangesOnlyStatus : Prop :=
  ∀ (s t : State) (w : Word), s.Completes w → s.status.err = false → step s = .next t →
    t.status.err = true →
    t = { s with
      events := s.events.tail
      sequencer := .idle
      status := { s.status with done := true, err := true, errcode := t.status.errcode, sticky := true } }

/-- R111: the STATUS updates of acceptance, of a normal completion and of an error. OVR is not touched by any of them.
That the bus answers the accepted write with `written`, and that the sequencer keeps the whole word, is the model's own
(log entries 5 and 7). -/
def Obligations.StatusUpdatesOfACommand : Prop :=
  (∀ (s : State) (w : Word) (rest : List Event), s.sequencer = .idle →
    s.events = .write 32 0x000 w :: rest →
    step s = .next
      { s with
        events := rest
        response := some .written
        sequencer := .running w
        status := { s.status with done := false, err := false, errcode := .ok, lastop := w.extractLsb' 0 8 } })
  ∧ (∀ (s : State) (w : Word), s.Completes w →
      ∃ t, step s = .next t ∧ t.sequencer = .idle
        ∧ (t.status = { s.status with done := true }
          ∨ ∃ c, c ≠ .ok ∧ t.status = { s.status with done := true, err := true, errcode := c, sticky := true }))

/-- R104: ENCRYPT, EXPAND0_KEY, EXPAND0_SALT, EXPAND_KEY_SALT, EKS_LOOP and DIGEST in an unseeded block, their operands
else in order, raise NOSTATE; INIT and BCRYPT never do. -/
def Obligations.UnseededBlockRaisesNoState : Prop :=
  (∀ (i : Instr) (s : State), i ≠ .init → i ≠ .bcrypt → ¬ s.Seeded →
    (∀ e, e ≠ .nostate → ¬ Applies i s e) →
    exec i s = .next
      { s with
        sequencer := .idle
        status := { s.status with done := true, err := true, errcode := .nostate, sticky := true } })
  ∧ (∀ s t : State, s.status.errcode ≠ .nostate → (exec .init s = .next t ∨ exec .bcrypt s = .next t) →
      t.status.errcode ≠ .nostate)

/-! ### The register window (20_memory.md) and its hazards (70_reset_and_hazards.md) -/

/-- R31: the map and the offsets agree, each register at its one aligned offset; every other aligned offset is reserved. -/
def Obligations.WindowMapMatchesOffsets : Prop :=
  (∀ r : Reg, (regOffset r).toNat % 4 = 0 ∧ regAt (regOffset r) = some r)
  ∧ (∀ (off : Offset) (r : Reg), off.toNat % 4 = 0 → regAt off = some r → off = regOffset r)
  ∧ (∀ off : Offset, off.toNat % 4 = 0 →
      (regAt off = none ↔ (off.toNat = 0x01C ∨ (0x030 ≤ off.toNat ∧ off.toNat ≤ 0x03C)
        ∨ (0x088 ≤ off.toNat ∧ off.toNat ≤ 0x09C) ∨ (0x0B8 ≤ off.toNat ∧ off.toNat ≤ 0x0FC)
        ∨ (0x148 ≤ off.toNat ∧ off.toNat ≤ 0xFFC))))

/-- R34, R35, R117: an access of another width, misaligned, at a reserved offset, a write of a read-only register or a
read of CMD answers BusError and changes nothing. -/
def Obligations.RefusedAccessChangesNothing : Prop :=
  ∀ (s : State) (width : Nat) (off : Offset) (rest : List Event),
    ((width ≠ 32 ∨ ¬ ReadableOffset off) → s.events = .read width off :: rest →
      step s = .next { s with events := rest, response := some .busError })
    ∧ (∀ v : Word, (width ≠ 32 ∨ ¬ WritableOffset off) → s.events = .write width off v :: rest →
      step s = .next { s with events := rest, response := some .busError })

/-- R130: while busy every write the window could take is rejected: it sets OVR and changes nothing else.
A write to a read-only or reserved offset is a bus error, busy or not, and leaves OVR.
What the bus answers to a rejected write is the model's own (log entry 4) and is left open here. -/
def Obligations.BusyWriteSetsOverrunOnly : Prop :=
  ∀ (s : State) (off : Offset) (v : Word) (rest : List Event), s.events = .write 32 off v :: rest →
    (s.busy = true → WritableOffset off →
      ∃ t, step s = .next t ∧ t =
        { s with
          events := rest
          response := t.response
          status := { s.status with ovr := true } })
    ∧ (¬ WritableOffset off → step s = .next { s with events := rest, response := some .busError })

/-- R38: while idle a write to an RW register stores the value and sets that register's valid bit; a read of it then gives
the value; and no other register but VALID reads differently. -/
def Obligations.IdleWriteIsReadBack : Prop :=
  ∀ (s : State) (r : Reg) (v : Word) (rest : List Event),
    s.sequencer = .idle → WritableOffset (regOffset r) → r ≠ .cmd →
    s.events = .write 32 (regOffset r) v :: rest →
    ∃ t, step s = .next t
      ∧ t.readReg r = .value v
      ∧ (∀ r', r' ≠ r → r' ≠ .valid → t.readReg r' = s.readReg r')
      ∧ t.validWord = s.validWord |||
          (match r with
          | .dl => BitVec.twoPow 32 2
          | .dr => BitVec.twoPow 32 3
          | .saltw k => BitVec.twoPow 32 (4 + k.val)
          | .keyw w => BitVec.twoPow 32 (8 + w.val)
          | _ => 0)
      ∧ t.sequencer = .idle ∧ t.events = rest ∧ t.draws = s.draws ∧ t.status = s.status

/-- R37, R39: while idle a read answers the register's value where it is defined and the next free draw where its valid bit
is 0; it changes nothing of the block. The form of a free draw, the counter's next `Config.freeWord`, is the model's choice
(log entry 2). -/
def Obligations.IdleReadAnswersValueOrFreeDraw : Prop :=
  ∀ (s : State) (off : Offset) (rest : List Event), s.sequencer = .idle → s.events = .read 32 off :: rest →
    let answers (v : Word) := step s = .next { s with events := rest, response := some (.data v) }
    let drawsFree := step s = .next
      { s with events := rest, response := some (.data (Config.freeWord s.draws)), draws := s.draws + 1 }
    (off = 0x004 → answers s.statusWord)
    ∧ (off = 0x008 → answers s.validWord)
    ∧ (off = 0x00C → answers s.cost)
    ∧ (off = 0x010 → answers s.keylen)
    ∧ (off = 0x014 → if s.valid.dlv then answers s.dl else drawsFree)
    ∧ (off = 0x018 → if s.valid.drv then answers s.dr else drawsFree)
    ∧ (∀ k : Fin 4, off.toNat = 0x020 + 4 * k.val →
        if s.valid.saltv.getLsbD k.val then answers s.saltw[k] else drawsFree)
    ∧ (∀ w : Fin 18, off.toNat = 0x040 + 4 * w.val →
        if s.valid.keyv.getLsbD w.val then answers s.keyw[w] else drawsFree)
    ∧ (∀ j : Fin 6, off.toNat = 0x0A0 + 4 * j.val → if s.valid.cv then answers s.cdata[j] else drawsFree)
    ∧ (∀ i : Fin 18, off.toNat = 0x100 + 4 * i.val → if s.valid.sv then answers s.cipher.p[i] else drawsFree)
    ∧ (∀ (k : Fin 4) (i : Fin 256), off.toNat = 0x1000 + 4 * (256 * k.val + i.val) →
        if s.valid.sv then answers s.cipher.sbox[k][i] else drawsFree)

/-- R40: while busy STATUS, VALID, COST, KEYLEN and the written SALTW and KEYW words answer their value; every other
readable register answers the next free draw. The form of a free draw, the counter's next `Config.freeWord`, is the
model's choice (log entry 2). -/
def Obligations.BusyReadAnswersValueOrFreeDraw : Prop :=
  ∀ (s : State) (off : Offset) (rest : List Event), s.busy = true → s.events = .read 32 off :: rest →
    let answers (v : Word) := step s = .next { s with events := rest, response := some (.data v) }
    let drawsFree := step s = .next
      { s with events := rest, response := some (.data (Config.freeWord s.draws)), draws := s.draws + 1 }
    (off = 0x004 → answers s.statusWord)
    ∧ (off = 0x008 → answers s.validWord)
    ∧ (off = 0x00C → answers s.cost)
    ∧ (off = 0x010 → answers s.keylen)
    ∧ (∀ k : Fin 4, off.toNat = 0x020 + 4 * k.val →
        if s.valid.saltv.getLsbD k.val then answers s.saltw[k] else drawsFree)
    ∧ (∀ w : Fin 18, off.toNat = 0x040 + 4 * w.val →
        if s.valid.keyv.getLsbD w.val then answers s.keyw[w] else drawsFree)
    ∧ (off.toNat % 4 = 0 → (off = 0x014 ∨ off = 0x018 ∨ (0x0A0 ≤ off.toNat ∧ off.toNat ≤ 0x0B4)
        ∨ (0x100 ≤ off.toNat ∧ off.toNat ≤ 0x144) ∨ 0x1000 ≤ off.toNat) → drawsFree)

/-- R27, R99: the fields of the STATUS word, its reserved bits 0, ERRCODE by the numbers of R99; BUSY is 1 exactly while a
command runs. -/
def Obligations.StatusWordFields : Prop :=
  ∀ s : State,
    s.statusWord.getLsbD 0 = s.busy
    ∧ (s.busy = true ↔ ∃ w, s.sequencer = .running w)
    ∧ s.statusWord.getLsbD 1 = s.status.done
    ∧ s.statusWord.getLsbD 2 = s.status.err
    ∧ s.statusWord.getLsbD 3 = s.status.sticky
    ∧ s.statusWord.getLsbD 4 = s.status.ovr
    ∧ s.statusWord.extractLsb' 5 3 = 0
    ∧ s.statusWord.extractLsb' 8 4 =
        (match s.status.errcode with
        | .ok => 0#4
        | .illegal => 1#4
        | .cost => 2#4
        | .keylen => 3#4
        | .uninit => 4#4
        | .nostate => 5#4)
    ∧ s.statusWord.extractLsb' 12 4 = 0
    ∧ s.statusWord.extractLsb' 16 8 = s.status.lastop
    ∧ s.statusWord.extractLsb' 24 8 = 0

/-- R28: the fields of the VALID word, its reserved bits 0. -/
def Obligations.ValidWordFields : Prop :=
  ∀ s : State,
    s.validWord.getLsbD 0 = s.valid.sv
    ∧ s.validWord.getLsbD 1 = s.valid.cv
    ∧ s.validWord.getLsbD 2 = s.valid.dlv
    ∧ s.validWord.getLsbD 3 = s.valid.drv
    ∧ (∀ k : Fin 4, s.validWord.getLsbD (4 + k.val) = s.valid.saltv.getLsbD k.val)
    ∧ (∀ w : Fin 18, s.validWord.getLsbD (8 + w.val) = s.valid.keyv.getLsbD w.val)
    ∧ s.validWord.extractLsb' 26 6 = 0

/-! ### Reset -/

/-- R30: the values the spec gives for reset. -/
def Obligations.ResetStateIsAsSpecified : Prop :=
  State.reset.statusWord = 0 ∧ State.reset.validWord = 0 ∧ State.reset.cost = 0 ∧ State.reset.keylen = 0
    ∧ State.reset.sequencer = .idle ∧ State.reset.busy = false

/-- R124, R126: the reset input, at any time, clears STATUS, VALID, COST and KEYLEN, idles the sequencer, and leaves in
every word of P, S, DL, DR, KEYW, SALTW and CDATA a free draw, a different one for each word (the numbering of the draws is log entry 2's). -/
def Obligations.ResetInputClearsAndDraws : Prop :=
  ∀ (s : State) (rest : List Event), s.events = .reset :: rest →
    ∃ t, step s = .next t
      ∧ t.statusWord = 0 ∧ t.validWord = 0 ∧ t.cost = 0 ∧ t.keylen = 0 ∧ t.sequencer = .idle
      ∧ t.events = rest
      ∧ (∀ i : Fin 18, t.cipher.p[i] = Config.freeWord (s.draws + i.val))
      ∧ (∀ (k : Fin 4) (i : Fin 256),
          t.cipher.sbox[k][i] = Config.freeWord (s.draws + 18 + 256 * k.val + i.val))
      ∧ t.dl = Config.freeWord (s.draws + 1042) ∧ t.dr = Config.freeWord (s.draws + 1043)
      ∧ (∀ w : Fin 18, t.keyw[w] = Config.freeWord (s.draws + 1044 + w.val))
      ∧ (∀ k : Fin 4, t.saltw[k] = Config.freeWord (s.draws + 1062 + k.val))
      ∧ (∀ j : Fin 6, t.cdata[j] = Config.freeWord (s.draws + 1066 + j.val))
      ∧ t.draws = s.draws + 1072

/-! ### Rules over every step -/

/-- The reset state is consistent. -/
def Obligations.ResetStateIsConsistent : Prop := State.reset.Consistent

/-- R17, R25, R27, R110, R111: every step, from any consistent state, leaves a consistent one. -/
def Obligations.EveryStepKeepsConsistency : Prop :=
  ∀ s t : State, s.Consistent → step s = .next t → t.Consistent

/-- R103, R129: no step, and no answer to a read, depends on a word whose valid bit is 0: two states that agree wherever the
spec gives a value step to two states that agree likewise.
That the two runs also draw the same free values, and so answer alike, is the model's choice and unsafe (log entry 2):
their draws are numbered alike, where two blocks could return different values. -/
def Obligations.UnspecifiedWordsReachNoResult : Prop :=
  ∀ s t : State, s.Agree t → ∃ s' t', step s = .next s' ∧ step t = .next t' ∧ s'.Agree t'

/-- R126: only the reset input clears STICKY, OVR, SV, CV or an operand's valid bit. -/
def Obligations.OnlyResetClearsStickyBits : Prop :=
  ∀ s t : State, step s = .next t → ¬ s.ResetNext → StickyBitsKept s t

/-- R14, R15: but for reset, P and S change only at the completion of INIT, EXPAND0_KEY, EXPAND0_SALT, EXPAND_KEY_SALT,
EKS_LOOP or BCRYPT; no host access, and neither ENCRYPT nor DIGEST, changes them. -/
def Obligations.OnlySixCommandsChangeCipherState : Prop :=
  ∀ s t : State, step s = .next t → t.cipher ≠ s.cipher → ¬ s.ResetNext →
    ∃ i, s.CompletesCommand i
      ∧ (i = .init ∨ i = .expand0Key ∨ i = .expand0Salt ∨ i = .expandKeySalt ∨ i = .eksLoop ∨ i = .bcrypt)

/-- R17, R25: but for reset, CDATA and CV change only at the completion of DIGEST or BCRYPT, and SV only at that of INIT or
BCRYPT. -/
def Obligations.OnlyTheirCommandsChangeResults : Prop :=
  ∀ s t : State, step s = .next t → ¬ s.ResetNext →
    ((t.cdata ≠ s.cdata ∨ t.valid.cv ≠ s.valid.cv) → s.CompletesCommand .digest ∨ s.CompletesCommand .bcrypt)
    ∧ (t.valid.sv ≠ s.valid.sv → s.CompletesCommand .init ∨ s.CompletesCommand .bcrypt)

/-- R19 to R22, R38: but for reset, COST, KEYLEN, KEYW and SALTW change only at an idle host write of that register, and DL
and DR only at one or at the completion of ENCRYPT. -/
def Obligations.OperandsChangeOnlyByTheirWriters : Prop :=
  ∀ s t : State, step s = .next t → ¬ s.ResetNext →
    let writes (off : Nat) := s.sequencer = .idle ∧ ∃ o v, s.events.head? = some (.write 32 o v) ∧ o.toNat = off
    (t.cost ≠ s.cost → writes 0x00C)
    ∧ (t.keylen ≠ s.keylen → writes 0x010)
    ∧ (t.dl ≠ s.dl → writes 0x014 ∨ s.CompletesCommand .encrypt)
    ∧ (t.dr ≠ s.dr → writes 0x018 ∨ s.CompletesCommand .encrypt)
    ∧ (∀ k : Fin 4, t.saltw[k] ≠ s.saltw[k] → writes (0x020 + 4 * k.val))
    ∧ (∀ w : Fin 18, t.keyw[w] ≠ s.keyw[w] → writes (0x040 + 4 * w.val))

/-- When the running word is a command and its completion is the next event, the step is exec of that command, on the state
less that event; and a command word placed by withFetchWord is run by the very next step.
R29 and R56 say what is decoded and allow one effect at completion. That the word is kept and decoded at the completion is
the model's choice (log entry 5), and withFetchWord is the model's own device (log entry 3): it stands for an accepted write
to CMD and replaces a running command, where R130 would reject such a write. -/
def Obligations.StepRunsTheRunningCommand : Prop :=
  (∀ (s : State) (w : Word) (i : Instr), s.Completes w → decode w = .ok i →
    step s = exec i { s with events := s.events.tail })
  ∧ (∀ (s : State) (w : Nat) (i : Instr), w < 2 ^ 32 → decodeTableWord 32 w = some i →
    step (s.withFetchWord 32 w) = exec i (s.acceptCommand (BitVec.ofNat 32 w)))

/-- No event stops the machine; every step answers a next state.
This is the model's deduction (log entry 8) from R98, by which a command ends normally or with an error in STATUS, and R117,
by which a refused access changes nothing. -/
def Obligations.EveryStepAnswersNext : Prop := ∀ s : State, ∃ t, step s = .next t

/-- R134, under the model's schedule (log entry 3). A running command whose schedule asserts no reset input completes: within
as many steps as there are events left, its completion is next with its own word still running, and that step leaves the
block idle with DONE = 1. And whatever the events, one step more than there are events left leaves an idle block with no
event to come; a reset input among them abandons the command then running (R124, R127). -/
def Obligations.CompletionIsReached : Prop :=
  (∀ (s : State) (w : Word), s.sequencer = .running w → Event.reset ∉ s.events →
    ∃ n m t, n ≤ s.events.length ∧ core.run n s = .next m ∧ m.Completes w
      ∧ step m = .next t ∧ t.sequencer = .idle ∧ t.status.done = true)
  ∧ (∀ s : State, ∃ t, core.run (s.events.length + 1) s = .next t ∧ t.sequencer = .idle ∧ t.events = [])

/-- R108, and program P6 of 95_test_vectors.md: a write of DL ordered before the completion of the running command is
rejected and leaves OVR; ordered after it, the write is performed. -/
def Obligations.WriteMayFallBeforeOrAfterCompletion : Prop :=
  ∀ (s : State) (i : Instr) (v : Word) (rest : List Event), s.sequencer = .running (encode i) →
    (s.events = .write 32 0x014 v :: .complete :: rest →
      ∃ m t, step s = .next m ∧ m.dl = s.dl ∧ m.valid = s.valid ∧ step m = .next t
        ∧ t.status.ovr = true ∧ t.sequencer = .idle ∧ (t.dl ≠ s.dl → i = .encrypt))
    ∧ (s.events = .complete :: .write 32 0x014 v :: rest →
      ∃ m t, step s = .next m ∧ m.sequencer = .idle ∧ step m = .next t
        ∧ t.dl = v ∧ t.valid.dlv = true ∧ t.status.ovr = s.status.ovr)

/-- R120: a step of one block leaves every other block, and every BASE, as it was. -/
def Obligations.OtherBlocksAreUntouched : Prop :=
  ∀ (sys sys' : System) (k : Nat), System.stepBlock sys k = .next sys' →
    sys'.blocks.length = sys.blocks.length
    ∧ (∀ j, j ≠ k → sys'.blocks[j]? = sys.blocks[j]?)
    ∧ (∀ j : Nat, (sys'.blocks[j]?).map Mapped.base = (sys.blocks[j]?).map Mapped.base)

/-! ### Constants and the host's side -/

/-- R81: the sums modulo 2^32 and the XORs of the five tables. -/
def Obligations.PiTablesHaveTheirChecksums : Prop :=
  (piP.toList.sum = 0x8E4D14CC ∧ piP.toList.foldl (· ^^^ ·) 0 = 0xB73AD7EA)
  ∧ (piS0.toList.sum = 0x4B745115 ∧ piS0.toList.foldl (· ^^^ ·) 0 = 0x4EB4DB7F)
  ∧ (piS1.toList.sum = 0x72FF37B2 ∧ piS1.toList.foldl (· ^^^ ·) 0 = 0xC727E122)
  ∧ (piS2.toList.sum = 0x2AC02B91 ∧ piS2.toList.foldl (· ^^^ ·) 0 = 0x462A5D01)
  ∧ (piS3.toList.sum = 0xF43E3A88 ∧ piS3.toList.foldl (· ^^^ ·) 0 = 0x1779E2BC)

/-- R82, R83: key material past the first 72 bytes has no effect on the key the host hands over, for the tags 2, 2b and 2y,
and for 2a with key bytes below 0x80 (R97); tag 2x is refused whatever the bytes.
That for 2a the bytes cut away may be 0x80 or above is the model's choice (log entry 11). -/
def Obligations.KeyMaterialPastSeventyTwoBytesIsDropped : Prop :=
  ∀ (tag : VersionTag) (a b c : List Byte), a.length = 72 →
    ((tag = .v2 ∨ tag = .v2b ∨ tag = .v2y ∨ (tag = .v2a ∧ ∀ x ∈ a, x.toNat < 0x80)) →
      prepareKey tag (a ++ b) = .ok a ∧ prepareKey tag (a ++ b) = prepareKey tag (a ++ c))
    ∧ (tag = .v2x → prepareKey tag (a ++ b) = .error .legacyRefused)

/-- R89, R90: decoding what was encoded gives the bytes back, at any length. -/
def Obligations.CodecRoundTrips : Prop :=
  ∀ b : List Byte, b ≠ [] →
    ∃ text, encode64 b b.length = .ok text ∧ decode64 text b.length = .ok b
end

