-- ==== Sys2Proof/Laws/Cipher.lean ====
section
/-! SUPPORT. Small lemmas of the operand streams and of a key-schedule pass, so that no proof unfolds the fold over the
521 slots: `passTrace f x n` is the cipher and the running block before slot n, and a pass is its state at 521. -/

namespace Sys2Proof.Laws

open Sys2Proof.Machine

/-- Packing the four bytes of a word gives the word back (R8, R9). -/
@[simp] theorem be32_bigEndianByte (w : Word) :
    be32 (bigEndianByte w 0) (bigEndianByte w 1) (bigEndianByte w 2) (bigEndianByte w 3) = w := by
  apply BitVec.eq_of_getLsbD_eq
  intro i hi
  simp only [be32, bigEndianByte, BitVec.getLsbD_append, BitVec.getLsbD_extractLsb']
  by_cases h0 : i < 8
  · simp [h0]
  by_cases h1 : i - 8 < 8
  · simp [h0, h1]; congr 1; omega
  by_cases h2 : i - 8 - 8 < 8
  · simp [h0, h1, h2]; congr 1; omega
  · have : i - 8 - 8 - 8 < 8 := by omega
    simp [h0, h1, h2, this]; congr 1; omega

/-- Byte t of a packed word is its t-th byte (R8, R9). -/
theorem bigEndianByte_be32 (b : Fin 4 → Byte) (t : Fin 4) :
    bigEndianByte (be32 (b 0) (b 1) (b 2) (b 3)) t.val = b t := by
  apply BitVec.eq_of_getLsbD_eq
  intro i hi
  have h1 : ¬ 8 + i < 8 := by omega
  have h2 : ¬ 16 + i < 8 := by omega
  have h3 : ¬ 24 + i < 8 := by omega
  have e1 : 8 + i - 8 = i := by omega
  have e2 : 16 + i - 8 - 8 = i := by omega
  have e3 : 24 + i - 8 - 8 - 8 = i := by omega
  have h4 : ¬ 16 + i - 8 < 8 := by omega
  have h5 : ¬ 24 + i - 8 < 8 := by omega
  have h6 : ¬ 24 + i - 8 - 8 < 8 := by omega
  simp only [be32, bigEndianByte, BitVec.getLsbD_append, BitVec.getLsbD_extractLsb']
  fin_cases t <;> simp [hi, h1, h2, h3, e1, e2, e3, h4, h5, h6]

/-- Two byte strings that repeat to the same 72 bytes have one key stream (R62, R70(a)). -/
theorem keyStream_congr {K K' : Nat → Byte} {n n' : Nat}
    (h : ∀ j, j < 72 → K (j % n) = K' (j % n')) : keyStream K n = keyStream K' n' := by
  apply Vector.ext
  intro i hi
  simp only [keyStream, Vector.getElem_ofFn, keyStreamWord]
  rw [h _ (by omega), h _ (by omega), h _ (by omega), h _ (by omega)]

@[simp] theorem mixKey_p (c : Cipher) (kw : Vector Word 18) (i : Nat) (hi : i < 18) :
    (c.mixKey kw).p[i] = c.p[i] ^^^ kw[i] := by
  simp [Cipher.mixKey]

@[simp] theorem mixKey_sbox (c : Cipher) (kw : Vector Word 18) : (c.mixKey kw).sbox = c.sbox := by
  dsimp only [Cipher.mixKey]

@[simp] theorem expand0Slot_fst (cb : Cipher × Block) (n : Fin 521) :
    (expand0Slot cb n).1 = cb.1.store n (expand0Slot cb n).2 := by
  dsimp only [expand0Slot]

@[simp] theorem expandSaltedSlot_fst (saltw : Vector Word 4) (cb : Cipher × Block) (n : Fin 521) :
    (expandSaltedSlot saltw cb n).1 = cb.1.store n (expandSaltedSlot saltw cb n).2 := by
  dsimp only [expandSaltedSlot]

/-- The cipher and the running block of a pass before slot n. -/
@[irreducible] def passTrace (f : Cipher × Block → Fin 521 → Cipher × Block) (x : Cipher × Block) (n : Nat) :
    Cipher × Block :=
  ((List.finRange 521).take n).foldl f x

@[simp] theorem passTrace_zero (f : Cipher × Block → Fin 521 → Cipher × Block) (x : Cipher × Block) :
    passTrace f x 0 = x := by
  unfold passTrace; rfl

theorem passTrace_succ (f : Cipher × Block → Fin 521 → Cipher × Block) (x : Cipher × Block) (n : Fin 521) :
    passTrace f x (n.val + 1) = f (passTrace f x n.val) n := by
  unfold passTrace
  rw [List.take_succ_eq_append_getElem (by simp)]
  simp

theorem expand0_eq_passTrace (c : Cipher) (kw : Vector Word 18) :
    c.expand0 kw = (passTrace expand0Slot (c.mixKey kw, ⟨0, 0⟩) 521).1 := by
  unfold Cipher.expand0 passTrace
  rw [List.take_of_length_le (by simp)]

theorem expandSalted_eq_passTrace (c : Cipher) (kw : Vector Word 18) (saltw : Vector Word 4) :
    c.expandSalted kw saltw = (passTrace (expandSaltedSlot saltw) (c.mixKey kw, ⟨0, 0⟩) 521).1 := by
  unfold Cipher.expandSalted passTrace
  rw [List.take_of_length_le (by simp)]

end Sys2Proof.Laws
end

