-- ==== Sys2Proof/Laws/State.lean ====
section
/-! SUPPORT. One lemma for each field that each update of State leaves alone or sets, so that no later proof unfolds one. -/

namespace Sys2Proof.Laws

open Sys2Proof.Machine

@[simp] theorem acceptCommand_cipher (w : Word) (s : State) :
    (s.acceptCommand w).cipher = s.cipher := rfl
@[simp] theorem acceptCommand_dl (w : Word) (s : State) :
    (s.acceptCommand w).dl = s.dl := rfl
@[simp] theorem acceptCommand_dr (w : Word) (s : State) :
    (s.acceptCommand w).dr = s.dr := rfl
@[simp] theorem acceptCommand_cost (w : Word) (s : State) :
    (s.acceptCommand w).cost = s.cost := rfl
@[simp] theorem acceptCommand_keylen (w : Word) (s : State) :
    (s.acceptCommand w).keylen = s.keylen := rfl
@[simp] theorem acceptCommand_keyw (w : Word) (s : State) :
    (s.acceptCommand w).keyw = s.keyw := rfl
@[simp] theorem acceptCommand_saltw (w : Word) (s : State) :
    (s.acceptCommand w).saltw = s.saltw := rfl
@[simp] theorem acceptCommand_cdata (w : Word) (s : State) :
    (s.acceptCommand w).cdata = s.cdata := rfl
@[simp] theorem acceptCommand_status (w : Word) (s : State) :
    (s.acceptCommand w).status = { s.status with done := false, err := false, errcode := .ok, lastop := w.extractLsb' 0 8 } := rfl
@[simp] theorem acceptCommand_valid (w : Word) (s : State) :
    (s.acceptCommand w).valid = s.valid := rfl
@[simp] theorem acceptCommand_sequencer (w : Word) (s : State) :
    (s.acceptCommand w).sequencer = .running w := rfl
@[simp] theorem acceptCommand_events (w : Word) (s : State) :
    (s.acceptCommand w).events = s.events := rfl
@[simp] theorem acceptCommand_response (w : Word) (s : State) :
    (s.acceptCommand w).response = s.response := rfl
@[simp] theorem acceptCommand_draws (w : Word) (s : State) :
    (s.acceptCommand w).draws = s.draws := rfl

@[simp] theorem finish_cipher (s : State) :
    s.finish.cipher = s.cipher := rfl
@[simp] theorem finish_dl (s : State) :
    s.finish.dl = s.dl := rfl
@[simp] theorem finish_dr (s : State) :
    s.finish.dr = s.dr := rfl
@[simp] theorem finish_cost (s : State) :
    s.finish.cost = s.cost := rfl
@[simp] theorem finish_keylen (s : State) :
    s.finish.keylen = s.keylen := rfl
@[simp] theorem finish_keyw (s : State) :
    s.finish.keyw = s.keyw := rfl
@[simp] theorem finish_saltw (s : State) :
    s.finish.saltw = s.saltw := rfl
@[simp] theorem finish_cdata (s : State) :
    s.finish.cdata = s.cdata := rfl
@[simp] theorem finish_status (s : State) :
    s.finish.status = { s.status with done := true } := rfl
@[simp] theorem finish_valid (s : State) :
    s.finish.valid = s.valid := rfl
@[simp] theorem finish_sequencer (s : State) :
    s.finish.sequencer = .idle := rfl
@[simp] theorem finish_events (s : State) :
    s.finish.events = s.events := rfl
@[simp] theorem finish_response (s : State) :
    s.finish.response = s.response := rfl
@[simp] theorem finish_draws (s : State) :
    s.finish.draws = s.draws := rfl

@[simp] theorem raiseError_cipher (c : ErrCode) (s : State) :
    (s.raiseError c).cipher = s.cipher := rfl
@[simp] theorem raiseError_dl (c : ErrCode) (s : State) :
    (s.raiseError c).dl = s.dl := rfl
@[simp] theorem raiseError_dr (c : ErrCode) (s : State) :
    (s.raiseError c).dr = s.dr := rfl
@[simp] theorem raiseError_cost (c : ErrCode) (s : State) :
    (s.raiseError c).cost = s.cost := rfl
@[simp] theorem raiseError_keylen (c : ErrCode) (s : State) :
    (s.raiseError c).keylen = s.keylen := rfl
@[simp] theorem raiseError_keyw (c : ErrCode) (s : State) :
    (s.raiseError c).keyw = s.keyw := rfl
@[simp] theorem raiseError_saltw (c : ErrCode) (s : State) :
    (s.raiseError c).saltw = s.saltw := rfl
@[simp] theorem raiseError_cdata (c : ErrCode) (s : State) :
    (s.raiseError c).cdata = s.cdata := rfl
@[simp] theorem raiseError_status (c : ErrCode) (s : State) :
    (s.raiseError c).status = { s.status with done := true, err := true, errcode := c, sticky := true } := rfl
@[simp] theorem raiseError_valid (c : ErrCode) (s : State) :
    (s.raiseError c).valid = s.valid := rfl
@[simp] theorem raiseError_sequencer (c : ErrCode) (s : State) :
    (s.raiseError c).sequencer = .idle := rfl
@[simp] theorem raiseError_events (c : ErrCode) (s : State) :
    (s.raiseError c).events = s.events := rfl
@[simp] theorem raiseError_response (c : ErrCode) (s : State) :
    (s.raiseError c).response = s.response := rfl
@[simp] theorem raiseError_draws (c : ErrCode) (s : State) :
    (s.raiseError c).draws = s.draws := rfl

@[simp] theorem respond_cipher (r : Response) (s : State) :
    (s.respond r).cipher = s.cipher := rfl
@[simp] theorem respond_dl (r : Response) (s : State) :
    (s.respond r).dl = s.dl := rfl
@[simp] theorem respond_dr (r : Response) (s : State) :
    (s.respond r).dr = s.dr := rfl
@[simp] theorem respond_cost (r : Response) (s : State) :
    (s.respond r).cost = s.cost := rfl
@[simp] theorem respond_keylen (r : Response) (s : State) :
    (s.respond r).keylen = s.keylen := rfl
@[simp] theorem respond_keyw (r : Response) (s : State) :
    (s.respond r).keyw = s.keyw := rfl
@[simp] theorem respond_saltw (r : Response) (s : State) :
    (s.respond r).saltw = s.saltw := rfl
@[simp] theorem respond_cdata (r : Response) (s : State) :
    (s.respond r).cdata = s.cdata := rfl
@[simp] theorem respond_status (r : Response) (s : State) :
    (s.respond r).status = s.status := rfl
@[simp] theorem respond_valid (r : Response) (s : State) :
    (s.respond r).valid = s.valid := rfl
@[simp] theorem respond_sequencer (r : Response) (s : State) :
    (s.respond r).sequencer = s.sequencer := rfl
@[simp] theorem respond_events (r : Response) (s : State) :
    (s.respond r).events = s.events := rfl
@[simp] theorem respond_response (r : Response) (s : State) :
    (s.respond r).response = some r := rfl
@[simp] theorem respond_draws (r : Response) (s : State) :
    (s.respond r).draws = s.draws := rfl

@[simp] theorem busError_cipher (s : State) :
    s.busError.cipher = s.cipher := rfl
@[simp] theorem busError_dl (s : State) :
    s.busError.dl = s.dl := rfl
@[simp] theorem busError_dr (s : State) :
    s.busError.dr = s.dr := rfl
@[simp] theorem busError_cost (s : State) :
    s.busError.cost = s.cost := rfl
@[simp] theorem busError_keylen (s : State) :
    s.busError.keylen = s.keylen := rfl
@[simp] theorem busError_keyw (s : State) :
    s.busError.keyw = s.keyw := rfl
@[simp] theorem busError_saltw (s : State) :
    s.busError.saltw = s.saltw := rfl
@[simp] theorem busError_cdata (s : State) :
    s.busError.cdata = s.cdata := rfl
@[simp] theorem busError_status (s : State) :
    s.busError.status = s.status := rfl
@[simp] theorem busError_valid (s : State) :
    s.busError.valid = s.valid := rfl
@[simp] theorem busError_sequencer (s : State) :
    s.busError.sequencer = s.sequencer := rfl
@[simp] theorem busError_events (s : State) :
    s.busError.events = s.events := rfl
@[simp] theorem busError_response (s : State) :
    s.busError.response = some .busError := rfl
@[simp] theorem busError_draws (s : State) :
    s.busError.draws = s.draws := rfl

@[simp] theorem rejectWrite_cipher (s : State) :
    s.rejectWrite.cipher = s.cipher := rfl
@[simp] theorem rejectWrite_dl (s : State) :
    s.rejectWrite.dl = s.dl := rfl
@[simp] theorem rejectWrite_dr (s : State) :
    s.rejectWrite.dr = s.dr := rfl
@[simp] theorem rejectWrite_cost (s : State) :
    s.rejectWrite.cost = s.cost := rfl
@[simp] theorem rejectWrite_keylen (s : State) :
    s.rejectWrite.keylen = s.keylen := rfl
@[simp] theorem rejectWrite_keyw (s : State) :
    s.rejectWrite.keyw = s.keyw := rfl
@[simp] theorem rejectWrite_saltw (s : State) :
    s.rejectWrite.saltw = s.saltw := rfl
@[simp] theorem rejectWrite_cdata (s : State) :
    s.rejectWrite.cdata = s.cdata := rfl
@[simp] theorem rejectWrite_status (s : State) :
    s.rejectWrite.status = { s.status with ovr := true } := rfl
@[simp] theorem rejectWrite_valid (s : State) :
    s.rejectWrite.valid = s.valid := rfl
@[simp] theorem rejectWrite_sequencer (s : State) :
    s.rejectWrite.sequencer = s.sequencer := rfl
@[simp] theorem rejectWrite_events (s : State) :
    s.rejectWrite.events = s.events := rfl
@[simp] theorem rejectWrite_response (s : State) :
    s.rejectWrite.response = s.response := rfl
@[simp] theorem rejectWrite_draws (s : State) :
    s.rejectWrite.draws = s.draws := rfl

@[simp] theorem resetInput_p (s : State) : s.resetInput.cipher.p = drawWords 18 s.draws := rfl
@[simp] theorem resetInput_sbox (s : State) :
    s.resetInput.cipher.sbox = Vector.ofFn fun k => drawWords 256 (s.draws + 18 + 256 * k.val) := rfl
@[simp] theorem resetInput_dl (s : State) :
    s.resetInput.dl = Config.freeWord (s.draws + 1042) := rfl
@[simp] theorem resetInput_dr (s : State) :
    s.resetInput.dr = Config.freeWord (s.draws + 1043) := rfl
@[simp] theorem resetInput_cost (s : State) :
    s.resetInput.cost = 0 := rfl
@[simp] theorem resetInput_keylen (s : State) :
    s.resetInput.keylen = 0 := rfl
@[simp] theorem resetInput_keyw (s : State) :
    s.resetInput.keyw = drawWords 18 (s.draws + 1044) := rfl
@[simp] theorem resetInput_saltw (s : State) :
    s.resetInput.saltw = drawWords 4 (s.draws + 1062) := rfl
@[simp] theorem resetInput_cdata (s : State) :
    s.resetInput.cdata = drawWords 6 (s.draws + 1066) := rfl
@[simp] theorem resetInput_status (s : State) :
    s.resetInput.status = State.reset.status := rfl
@[simp] theorem resetInput_valid (s : State) :
    s.resetInput.valid = State.reset.valid := rfl
@[simp] theorem resetInput_sequencer (s : State) :
    s.resetInput.sequencer = .idle := rfl
@[simp] theorem resetInput_events (s : State) :
    s.resetInput.events = s.events := by simp only [State.resetInput]
@[simp] theorem resetInput_response (s : State) :
    s.resetInput.response = none := rfl
@[simp] theorem resetInput_draws (s : State) :
    s.resetInput.draws = s.draws + 1072 := rfl

end Sys2Proof.Laws
end

