-- ==== Sys2Proof/Laws/Ops.lean ====
section
/-! SUPPORT. Each shared operation said once: the checks as the conditions of R101 to R104, the two ways a command
completes, what a host access and an event can do. -/

namespace Sys2Proof.Laws

open Sys2Proof.Machine

theorem costError_eq_none (s : State) : s.costError = none ↔ s.CostValid := by
  simp [State.costError, State.CostValid]

theorem keylenError_eq_none (s : State) : s.keylenError = none ↔ s.KeylenValid := by
  simp [State.keylenError, State.KeylenValid]

theorem keyReady_iff (s : State) : s.keyReady = true ↔ s.KeyWritten := by
  simp [State.keyReady, State.KeyWritten, keyWordsNeeded, Valid.keyValid]

theorem saltReady_iff (s : State) : s.saltReady = true ↔ s.SaltWritten := by
  have h : ∀ v : BitVec 4, (v == 0b1111#4) = true ↔ ∀ k : Fin 4, v.getLsbD k.val = true := by decide
  exact h s.valid.saltv

theorem keyError_eq_none (s : State) : s.keyError = none ↔ s.KeyWritten := by
  rw [← keyReady_iff]
  unfold State.keyError
  cases s.keyReady <;> simp

theorem saltError_eq_none (s : State) : s.saltError = none ↔ s.SaltWritten := by
  rw [← saltReady_iff]
  unfold State.saltError
  cases s.saltReady <;> simp

theorem keySaltError_eq_none (s : State) : s.keySaltError = none ↔ s.KeyWritten ∧ s.SaltWritten := by
  rw [← keyReady_iff, ← saltReady_iff]
  unfold State.keySaltError
  cases s.keyReady <;> cases s.saltReady <;> simp

theorem blockError_eq_none (s : State) : s.blockError = none ↔ s.BlockWritten := by
  simp [State.blockError, State.BlockWritten]

theorem seedError_eq_none (s : State) : s.seedError = none ↔ s.Seeded := by
  simp [State.seedError, State.Seeded]

theorem costError_eq_some {s : State} {c : ErrCode} (h : s.costError = some c) : c = .cost := by
  unfold State.costError at h; split at h <;> simp_all

theorem keylenError_eq_some {s : State} {c : ErrCode} (h : s.keylenError = some c) : c = .keylen := by
  unfold State.keylenError at h; split at h <;> simp_all

theorem keyError_eq_some {s : State} {c : ErrCode} (h : s.keyError = some c) : c = .uninit := by
  unfold State.keyError at h; split at h <;> simp_all

theorem saltError_eq_some {s : State} {c : ErrCode} (h : s.saltError = some c) : c = .uninit := by
  unfold State.saltError at h; split at h <;> simp_all

theorem keySaltError_eq_some {s : State} {c : ErrCode} (h : s.keySaltError = some c) : c = .uninit := by
  unfold State.keySaltError at h; split at h <;> simp_all

theorem blockError_eq_some {s : State} {c : ErrCode} (h : s.blockError = some c) : c = .uninit := by
  unfold State.blockError at h; split at h <;> simp_all

theorem seedError_eq_some {s : State} {c : ErrCode} (h : s.seedError = some c) : c = .nostate := by
  unfold State.seedError at h; split at h <;> simp_all

@[simp] theorem runChecked_none (f : State → State) (s : State) :
    s.runChecked none f = .next (f s).finish := rfl

@[simp] theorem runChecked_some (c : ErrCode) (f : State → State) (s : State) :
    s.runChecked (some c) f = .next (s.raiseError c) := rfl

/-- Everything a checked command can do: raise the error found, or have its effect and complete. -/
theorem runChecked_cases {check : Option ErrCode} {f : State → State} {s t : State}
    (h : s.runChecked check f = .next t) :
    (∃ c, check = some c ∧ t = s.raiseError c) ∨ (check = none ∧ t = (f s).finish) := by
  cases check with
  | none => exact .inr ⟨rfl, by simpa using h.symm⟩
  | some c => exact .inl ⟨c, rfl, by simpa using h.symm⟩

@[simp] theorem busy_idle {s : State} (h : s.sequencer = .idle) : s.busy = false := by
  simp [State.busy, h]

@[simp] theorem busy_running {s : State} {w : Word} (h : s.sequencer = .running w) : s.busy = true := by
  simp [State.busy, h]

theorem busy_eq_false_iff (s : State) : s.busy = false ↔ s.sequencer = .idle := by
  cases h : s.sequencer <;> simp [State.busy, h]

theorem accessLegal_iff (width : Nat) (off : Offset) :
    accessLegal width off = true ↔ width = 32 ∧ off.toNat % 4 = 0 := by
  simp [accessLegal]

/-- Everything a host read can do: a bus error, or, at a legal access of a register, its value or a free draw. -/
theorem hostRead_cases (width : Nat) (off : Offset) (s : State) :
    s.hostRead width off = s.busError
      ∨ (∃ r v, accessLegal width off = true ∧ regAt off = some r ∧ s.readReg r = .value v
          ∧ s.hostRead width off = s.respond (.data v))
      ∨ (∃ r, accessLegal width off = true ∧ regAt off = some r ∧ s.readReg r = .anyValue
          ∧ s.hostRead width off =
              { s with response := some (.data (Config.freeWord s.draws)), draws := s.draws + 1 }) := by
  unfold State.hostRead
  split
  · rename_i hl
    split
    · exact .inl rfl
    · rename_i r hr
      cases h : s.readReg r with
      | value v => exact .inr (.inl ⟨r, v, hl, hr, h, rfl⟩)
      | anyValue => exact .inr (.inr ⟨r, hl, hr, h, rfl⟩)
      | refused => exact .inl rfl
  · exact .inl rfl

/-- Everything a host write can do: a bus error, or, at a legal access of a writable register, a rejection while busy or a
store while idle. -/
theorem hostWrite_cases (width : Nat) (off : Offset) (v : Word) (s : State) :
    s.hostWrite width off v = s.busError
      ∨ (∃ r, accessLegal width off = true ∧ regAt off = some r ∧ regWritable r = true ∧ s.busy = true
          ∧ s.hostWrite width off v = s.rejectWrite.respond .written)
      ∨ (∃ r, accessLegal width off = true ∧ regAt off = some r ∧ regWritable r = true ∧ s.busy = false
          ∧ s.hostWrite width off v = (s.storeReg r v).respond .written) := by
  unfold State.hostWrite
  split
  · rename_i hl
    split
    · exact .inl rfl
    · rename_i r hr
      by_cases hw : regWritable r = true
      · cases hb : s.busy with
        | true => exact .inr (.inl ⟨r, hl, hr, hw, rfl, by simp [hw]⟩)
        | false => exact .inr (.inr ⟨r, hl, hr, hw, rfl, by simp [hw]⟩)
      · exact .inl (by simp [hw])
  · exact .inl rfl

@[simp] theorem completeCommand_idle {s : State} (h : s.sequencer = .idle) :
    s.completeCommand = .next s := by
  simp [State.completeCommand, h]

theorem completeCommand_ok {s : State} {w : Word} {i : Instr} (h : s.sequencer = .running w)
    (hd : decode w = .ok i) : s.completeCommand = exec i s := by
  simp [State.completeCommand, h, hd]

theorem completeCommand_error {s : State} {w : Word} {e : DecodeError} (h : s.sequencer = .running w)
    (hd : decode w = .error e) : s.completeCommand = .next (s.raiseError .illegal) := by
  simp [State.completeCommand, h, hd]

/-- Everything the completion event can do. -/
theorem completeCommand_cases {s t : State} (h : s.completeCommand = .next t) :
    (s.sequencer = .idle ∧ t = s)
      ∨ (∃ w i, s.sequencer = .running w ∧ decode w = .ok i ∧ exec i s = .next t)
      ∨ (∃ w e, s.sequencer = .running w ∧ decode w = .error e ∧ t = s.raiseError .illegal) := by
  cases hq : s.sequencer with
  | idle => exact .inl ⟨rfl, by simpa [State.completeCommand, hq] using h.symm⟩
  | running w =>
    cases hd : decode w with
    | ok i => exact .inr (.inl ⟨w, i, rfl, hd, by simpa [State.completeCommand, hq, hd] using h⟩)
    | error e =>
      exact .inr (.inr ⟨w, e, rfl, hd, by simpa [State.completeCommand, hq, hd] using h.symm⟩)

theorem step_nil {s : State} (h : s.events = []) : step s = s.completeCommand := by
  simp [step, State.advance, h]

theorem step_cons {s : State} {e : Event} {rest : List Event} (h : s.events = e :: rest) :
    step s = State.applyEvent e { s with events := rest } := by
  simp [step, State.advance, h]

/-- A step whose event is the completion of the running word. -/
theorem step_completes {s : State} {w : Word} (h : s.Completes w) :
    step s = State.completeCommand { s with events := s.events.tail } := by
  rcases h with ⟨-, he | he⟩
  · rw [step_nil he]
    congr 1
    cases s
    simp_all
  · obtain ⟨rest, hrest⟩ : ∃ rest, s.events = .complete :: rest := by
      cases hs : s.events <;> simp_all
    rw [step_cons hrest, hrest]
    rfl

/-- Everything a step can do, by its event. -/
theorem step_cases {s t : State} (h : step s = .next t) :
    (s.events = [] ∧ s.completeCommand = .next t)
      ∨ (∃ rest, s.events = .complete :: rest
          ∧ State.completeCommand { s with events := rest } = .next t)
      ∨ (∃ width off rest, s.events = .read width off :: rest
          ∧ t = State.hostRead width off { s with events := rest })
      ∨ (∃ width off v rest, s.events = .write width off v :: rest
          ∧ t = State.hostWrite width off v { s with events := rest })
      ∨ (∃ rest, s.events = .reset :: rest ∧ t = State.resetInput { s with events := rest }) := by
  cases he : s.events with
  | nil => exact .inl ⟨rfl, by rw [← step_nil he]; exact h⟩
  | cons e rest =>
    rw [step_cons he] at h
    cases e with
    | complete => exact .inr (.inl ⟨rest, rfl, h⟩)
    | read width off =>
      exact .inr (.inr (.inl ⟨width, off, rest, rfl, (by simpa [State.applyEvent] using h.symm)⟩))
    | write width off v =>
      exact .inr (.inr (.inr (.inl ⟨width, off, v, rest, rfl,
        (by simpa [State.applyEvent] using h.symm)⟩)))
    | reset =>
      exact .inr (.inr (.inr (.inr ⟨rest, rfl, (by simpa [State.applyEvent] using h.symm)⟩)))

end Sys2Proof.Laws
end

