-- ==== Sys2Proof/Laws/Commands.lean ====
section
/-! SUPPORT. One inversion lemma for each command: whatever it answers, it is one of these two next states. -/

namespace Sys2Proof.Laws

open Sys2Proof.Machine

theorem execInit_eq (s : State) :
    exec .init s = .next
      ({ s with cipher := canonicalCipher, valid := { s.valid with sv := true } } : State).finish := rfl

theorem execEncrypt_cases {s t : State} (h : exec .encrypt s = .next t) :
    (∃ c, (c = .uninit ∨ c = .nostate) ∧ t = s.raiseError c)
      ∨ (s.BlockWritten ∧ s.Seeded ∧ t =
          ({ s with
            dl := (s.cipher.encryptBlock ⟨s.dl, s.dr⟩).left
            dr := (s.cipher.encryptBlock ⟨s.dl, s.dr⟩).right } : State).finish) := by
  simp only [exec, execEncrypt] at h
  rcases runChecked_cases h with ⟨c, hc, rfl⟩ | ⟨hc, rfl⟩
  · refine .inl ⟨c, ?_, rfl⟩
    rcases Option.or_eq_some_iff.1 hc with h | ⟨_, h⟩
    · exact .inl (blockError_eq_some h)
    · exact .inr (seedError_eq_some h)
  · rw [Option.or_eq_none_iff] at hc
    exact .inr ⟨(blockError_eq_none s).1 hc.1, (seedError_eq_none s).1 hc.2, rfl⟩

theorem execExpand0Key_cases {s t : State} (h : exec .expand0Key s = .next t) :
    (∃ c, (c = .keylen ∨ c = .uninit ∨ c = .nostate) ∧ t = s.raiseError c)
      ∨ (s.KeylenValid ∧ s.KeyWritten ∧ s.Seeded
          ∧ t = ({ s with cipher := s.cipher.expand0 (kwKey s) } : State).finish) := by
  simp only [exec, execExpand0Key] at h
  rcases runChecked_cases h with ⟨c, hc, rfl⟩ | ⟨hc, rfl⟩
  · refine .inl ⟨c, ?_, rfl⟩
    rcases Option.or_eq_some_iff.1 hc with h | ⟨_, h⟩
    · exact .inl (keylenError_eq_some h)
    · rcases Option.or_eq_some_iff.1 h with h | ⟨_, h⟩
      · exact .inr (.inl (keyError_eq_some h))
      · exact .inr (.inr (seedError_eq_some h))
  · simp only [Option.or_eq_none_iff] at hc
    exact .inr ⟨(keylenError_eq_none s).1 hc.1, (keyError_eq_none s).1 hc.2.1,
      (seedError_eq_none s).1 hc.2.2, rfl⟩

theorem execExpand0Salt_cases {s t : State} (h : exec .expand0Salt s = .next t) :
    (∃ c, (c = .uninit ∨ c = .nostate) ∧ t = s.raiseError c)
      ∨ (s.SaltWritten ∧ s.Seeded
          ∧ t = ({ s with cipher := s.cipher.expand0 (kwSalt s) } : State).finish) := by
  simp only [exec, execExpand0Salt] at h
  rcases runChecked_cases h with ⟨c, hc, rfl⟩ | ⟨hc, rfl⟩
  · refine .inl ⟨c, ?_, rfl⟩
    rcases Option.or_eq_some_iff.1 hc with h | ⟨_, h⟩
    · exact .inl (saltError_eq_some h)
    · exact .inr (seedError_eq_some h)
  · rw [Option.or_eq_none_iff] at hc
    exact .inr ⟨(saltError_eq_none s).1 hc.1, (seedError_eq_none s).1 hc.2, rfl⟩

theorem execExpandKeySalt_cases {s t : State} (h : exec .expandKeySalt s = .next t) :
    (∃ c, (c = .keylen ∨ c = .uninit ∨ c = .nostate) ∧ t = s.raiseError c)
      ∨ (s.KeylenValid ∧ s.KeyWritten ∧ s.SaltWritten ∧ s.Seeded
          ∧ t = ({ s with cipher := s.cipher.expandSalted (kwKey s) s.saltw } : State).finish) := by
  simp only [exec, execExpandKeySalt] at h
  rcases runChecked_cases h with ⟨c, hc, rfl⟩ | ⟨hc, rfl⟩
  · refine .inl ⟨c, ?_, rfl⟩
    rcases Option.or_eq_some_iff.1 hc with h | ⟨_, h⟩
    · exact .inl (keylenError_eq_some h)
    · rcases Option.or_eq_some_iff.1 h with h | ⟨_, h⟩
      · exact .inr (.inl (keySaltError_eq_some h))
      · exact .inr (.inr (seedError_eq_some h))
  · simp only [Option.or_eq_none_iff] at hc
    have hks := (keySaltError_eq_none s).1 hc.2.1
    exact .inr ⟨(keylenError_eq_none s).1 hc.1, hks.1, hks.2, (seedError_eq_none s).1 hc.2.2, rfl⟩

theorem execEksLoop_cases {s t : State} (h : exec .eksLoop s = .next t) :
    (∃ c, (c = .cost ∨ c = .keylen ∨ c = .uninit ∨ c = .nostate) ∧ t = s.raiseError c)
      ∨ (s.CostValid ∧ s.KeylenValid ∧ s.KeyWritten ∧ s.SaltWritten ∧ s.Seeded
          ∧ t = ({ s with
              cipher := s.cipher.rekeyLoop s.cost.toNat (kwKey s) (kwSalt s) } : State).finish) := by
  simp only [exec, execEksLoop] at h
  rcases runChecked_cases h with ⟨c, hc, rfl⟩ | ⟨hc, rfl⟩
  · refine .inl ⟨c, ?_, rfl⟩
    rcases Option.or_eq_some_iff.1 hc with h | ⟨_, h⟩
    · exact .inl (costError_eq_some h)
    · rcases Option.or_eq_some_iff.1 h with h | ⟨_, h⟩
      · exact .inr (.inl (keylenError_eq_some h))
      · rcases Option.or_eq_some_iff.1 h with h | ⟨_, h⟩
        · exact .inr (.inr (.inl (keySaltError_eq_some h)))
        · exact .inr (.inr (.inr (seedError_eq_some h)))
  · simp only [Option.or_eq_none_iff] at hc
    have hks := (keySaltError_eq_none s).1 hc.2.2.1
    exact .inr ⟨(costError_eq_none s).1 hc.1, (keylenError_eq_none s).1 hc.2.1, hks.1, hks.2,
      (seedError_eq_none s).1 hc.2.2.2, rfl⟩

theorem execDigest_cases {s t : State} (h : exec .digest s = .next t) :
    (t = s.raiseError .nostate)
      ∨ (s.Seeded ∧ t =
          ({ s with cdata := s.cipher.digest, valid := { s.valid with cv := true } } : State).finish) := by
  simp only [exec, execDigest] at h
  rcases runChecked_cases h with ⟨c, hc, rfl⟩ | ⟨hc, rfl⟩
  · exact .inl (by rw [seedError_eq_some hc])
  · exact .inr ⟨(seedError_eq_none s).1 hc, rfl⟩

/-- The cipher state BCRYPT leaves (R76, steps 1 to 3). -/
def bcryptCipher (s : State) : Cipher :=
  (canonicalCipher.expandSalted (kwKey s) s.saltw).rekeyLoop s.cost.toNat (kwKey s) (kwSalt s)

theorem execBcrypt_cases {s t : State} (h : exec .bcrypt s = .next t) :
    (∃ c, (c = .cost ∨ c = .keylen ∨ c = .uninit) ∧ t = s.raiseError c)
      ∨ (s.CostValid ∧ s.KeylenValid ∧ s.KeyWritten ∧ s.SaltWritten
          ∧ t = ({ s with
              cipher := bcryptCipher s
              cdata := (bcryptCipher s).digest
              valid := { s.valid with sv := true, cv := true } } : State).finish) := by
  simp only [exec, execBcrypt] at h
  rcases runChecked_cases h with ⟨c, hc, rfl⟩ | ⟨hc, rfl⟩
  · refine .inl ⟨c, ?_, rfl⟩
    rcases Option.or_eq_some_iff.1 hc with h | ⟨_, h⟩
    · exact .inl (costError_eq_some h)
    · rcases Option.or_eq_some_iff.1 h with h | ⟨_, h⟩
      · exact .inr (.inl (keylenError_eq_some h))
      · exact .inr (.inr (keySaltError_eq_some h))
  · simp only [Option.or_eq_none_iff] at hc
    have hks := (keySaltError_eq_none s).1 hc.2.2
    exact .inr ⟨(costError_eq_none s).1 hc.1, (keylenError_eq_none s).1 hc.2.1, hks.1, hks.2, rfl⟩

/-- Every command answers a next state. -/
theorem exec_next (i : Instr) (s : State) : ∃ t, exec i s = .next t := by
  have h : ∀ check f, ∃ t, s.runChecked check f = .next t := by
    intro check f
    cases check <;> exact ⟨_, rfl⟩
  cases i <;> simp only [exec, execInit, execEncrypt, execExpand0Key, execExpand0Salt, execExpandKeySalt,
    execEksLoop, execDigest, execBcrypt] <;> exact h _ _

/-- What every command keeps, whichever it is: it raises an error of its own, or completes with the fields no command
writes as they were and with the valid bits it does not set as they were. -/
theorem exec_cases {i : Instr} {s t : State} (h : exec i s = .next t) :
    (∃ c, c ≠ .ok ∧ c ≠ .illegal ∧ t = s.raiseError c)
      ∨ (t.sequencer = .idle ∧ t.status = { s.status with done := true } ∧ t.cost = s.cost
          ∧ t.keylen = s.keylen ∧ t.keyw = s.keyw ∧ t.saltw = s.saltw ∧ t.events = s.events
          ∧ t.response = s.response ∧ t.draws = s.draws
          ∧ (t.valid = s.valid ∨ t.valid = { s.valid with sv := true } ∨ (s.valid.sv = true
              ∧ t.valid = { s.valid with cv := true }) ∨ t.valid = { s.valid with sv := true, cv := true })) := by
  cases i with
  | init =>
    rw [execInit_eq] at h
    cases h
    exact .inr ⟨by simp, by simp, by simp, by simp, by simp, by simp, by simp, by simp, by simp,
      .inr (.inl (by simp))⟩
  | encrypt =>
    rcases execEncrypt_cases h with ⟨c, hc, rfl⟩ | ⟨-, -, rfl⟩
    · exact .inl ⟨c, by rcases hc with rfl | rfl <;> decide, by rcases hc with rfl | rfl <;> decide, rfl⟩
    · exact .inr ⟨by simp, by simp, by simp, by simp, by simp, by simp, by simp, by simp, by simp,
      .inl (by simp)⟩
  | expand0Key =>
    rcases execExpand0Key_cases h with ⟨c, hc, rfl⟩ | ⟨-, -, -, rfl⟩
    · exact .inl ⟨c, by rcases hc with rfl | rfl | rfl <;> decide,
        by rcases hc with rfl | rfl | rfl <;> decide, rfl⟩
    · exact .inr ⟨by simp, by simp, by simp, by simp, by simp, by simp, by simp, by simp, by simp,
      .inl (by simp)⟩
  | expand0Salt =>
    rcases execExpand0Salt_cases h with ⟨c, hc, rfl⟩ | ⟨-, -, rfl⟩
    · exact .inl ⟨c, by rcases hc with rfl | rfl <;> decide, by rcases hc with rfl | rfl <;> decide, rfl⟩
    · exact .inr ⟨by simp, by simp, by simp, by simp, by simp, by simp, by simp, by simp, by simp,
      .inl (by simp)⟩
  | expandKeySalt =>
    rcases execExpandKeySalt_cases h with ⟨c, hc, rfl⟩ | ⟨-, -, -, -, rfl⟩
    · exact .inl ⟨c, by rcases hc with rfl | rfl | rfl <;> decide,
        by rcases hc with rfl | rfl | rfl <;> decide, rfl⟩
    · exact .inr ⟨by simp, by simp, by simp, by simp, by simp, by simp, by simp, by simp, by simp,
      .inl (by simp)⟩
  | eksLoop =>
    rcases execEksLoop_cases h with ⟨c, hc, rfl⟩ | ⟨-, -, -, -, -, rfl⟩
    · exact .inl ⟨c, by rcases hc with rfl | rfl | rfl | rfl <;> decide,
        by rcases hc with rfl | rfl | rfl | rfl <;> decide, rfl⟩
    · exact .inr ⟨by simp, by simp, by simp, by simp, by simp, by simp, by simp, by simp, by simp,
      .inl (by simp)⟩
  | digest =>
    rcases execDigest_cases h with rfl | ⟨hs, rfl⟩
    · exact .inl ⟨.nostate, by decide, by decide, rfl⟩
    · exact .inr ⟨by simp, by simp, by simp, by simp, by simp, by simp, by simp, by simp, by simp,
      .inr (.inr (.inl ⟨hs, by simp⟩))⟩
  | bcrypt =>
    rcases execBcrypt_cases h with ⟨c, hc, rfl⟩ | ⟨-, -, -, -, rfl⟩
    · exact .inl ⟨c, by rcases hc with rfl | rfl | rfl <;> decide,
        by rcases hc with rfl | rfl | rfl <;> decide, rfl⟩
    · exact .inr ⟨by simp, by simp, by simp, by simp, by simp, by simp, by simp, by simp, by simp,
      .inr (.inr (.inr (by simp)))⟩

end Sys2Proof.Laws
end

