-- ==== Sys2Proof/Laws/PerInstr.lean ====
section
/-! SUPPORT. A statement about every command as syntax, one lemma for each constructor of Instr. -/

namespace Sys2Proof.Laws

/-- The command's word has the one legal form of R46: its RSVD field is zero, its OP field is the command's opcode. -/
def EncodedForm.Statement (i : Instr) : Prop :=
  wellFormedCommandWord (encode i) = true ∧ rsvdField (encode i) = 0 ∧ opField (encode i) = i.opcode

theorem EncodedForm.init : EncodedForm.Statement .init := by
  unfold EncodedForm.Statement; decide

theorem EncodedForm.encrypt : EncodedForm.Statement .encrypt := by
  unfold EncodedForm.Statement; decide

theorem EncodedForm.expand0Key : EncodedForm.Statement .expand0Key := by
  unfold EncodedForm.Statement; decide

theorem EncodedForm.expand0Salt : EncodedForm.Statement .expand0Salt := by
  unfold EncodedForm.Statement; decide

theorem EncodedForm.expandKeySalt : EncodedForm.Statement .expandKeySalt := by
  unfold EncodedForm.Statement; decide

theorem EncodedForm.eksLoop : EncodedForm.Statement .eksLoop := by
  unfold EncodedForm.Statement; decide

theorem EncodedForm.digest : EncodedForm.Statement .digest := by
  unfold EncodedForm.Statement; decide

theorem EncodedForm.bcrypt : EncodedForm.Statement .bcrypt := by
  unfold EncodedForm.Statement; decide

end Sys2Proof.Laws
end

