-- ==== Sys2Proof/Laws/Window.lean ====
section
/-! SUPPORT. The register map said once: which register an offset belongs to, which offsets are reserved, and the ranges of
writable and readable offsets as conditions on `regAt`, so that no proof unfolds the map. -/

namespace Sys2Proof.Laws

open Sys2Proof.Machine

theorem arrayReg_eq_some_iff (base n : Nat) (reg : Fin n → Reg) (o : Nat) (r : Reg) :
    arrayReg base n reg o = some r ↔ ∃ k : Fin n, r = reg k ∧ base + 4 * k.val ≤ o ∧ o < base + 4 * k.val + 4 := by
  unfold arrayReg
  split
  · rename_i h
    constructor
    · intro hr
      cases hr
      exact ⟨_, rfl, by dsimp only; omega, by dsimp only; omega⟩
    · rintro ⟨k, rfl, h1, h2⟩
      have : (o - base) / 4 = k.val := by omega
      simp [this]
  · rename_i h
    constructor
    · intro hr; cases hr
    · rintro ⟨k, -, h1, h2⟩
      have := k.isLt
      exact absurd ⟨by omega, by omega⟩ h

theorem arrayReg_eq_none_iff (base n : Nat) (reg : Fin n → Reg) (o : Nat) :
    arrayReg base n reg o = none ↔ ¬ (base ≤ o ∧ o < base + 4 * n) := by
  unfold arrayReg
  split <;> simp_all

theorem controlReg_eq_none_iff (i : Nat) : controlReg i = none ↔ 7 ≤ i := by
  rcases Nat.lt_or_ge i 7 with h | h
  · interval_cases i <;> simp [controlReg]
  · obtain ⟨j, rfl⟩ := Nat.exists_eq_add_of_le' h
    simp [controlReg]

/-- The reserved offsets of R31, byte by byte. -/
theorem regAt_eq_none_iff (off : Offset) :
    regAt off = none ↔ (0x01C ≤ off.toNat ∧ off.toNat < 0x020) ∨ (0x030 ≤ off.toNat ∧ off.toNat < 0x040)
      ∨ (0x088 ≤ off.toNat ∧ off.toNat < 0x0A0) ∨ (0x0B8 ≤ off.toNat ∧ off.toNat < 0x100)
      ∨ (0x148 ≤ off.toNat ∧ off.toNat < 0x1000) := by
  have := off.isLt
  simp only [regAt, Option.or_eq_none_iff, arrayReg_eq_none_iff, controlReg_eq_none_iff]
  omega

/-- An offset in the word of a register lies at most 3 bytes above the offset of that register. -/
theorem regAt_cases {off : Offset} {r : Reg} (h : regAt off = some r) :
    (regOffset r).toNat ≤ off.toNat ∧ off.toNat < (regOffset r).toNat + 4 := by
  simp only [regAt, Option.or_eq_some_iff, arrayReg_eq_some_iff, Option.or_eq_none_iff] at h
  rcases h with ((((h | ⟨-, k, rfl, h⟩) | ⟨-, k, rfl, h⟩) | ⟨-, k, rfl, h⟩) | ⟨-, k, rfl, h⟩) | ⟨-, k, rfl, h⟩
  · unfold controlReg at h
    split at h <;> cases h <;> simp [regOffset] <;> omega
  all_goals
    have := k.isLt
    simp only [regOffset, BitVec.toNat_ofNat]
    omega


/-- The first column of the map of R31, as numbers. -/
theorem regOffset_val (r : Reg) : (regOffset r).toNat =
    match r with
    | .cmd => 0x000
    | .status => 0x004
    | .valid => 0x008
    | .cost => 0x00C
    | .keylen => 0x010
    | .dl => 0x014
    | .dr => 0x018
    | .saltw k => 0x020 + 4 * k.val
    | .keyw w => 0x040 + 4 * w.val
    | .cdata j => 0x0A0 + 4 * j.val
    | .pw i => 0x100 + 4 * i.val
    | .sw m => 0x1000 + 4 * m.val := by
  cases r <;> simp only [regOffset, BitVec.toNat_ofNat] <;> first | rfl | omega

/-- What `regAt` answers, whole: the register whose four bytes hold the offset. -/
theorem regAt_eq_some_iff (off : Offset) (r : Reg) :
    regAt off = some r ↔ (regOffset r).toNat ≤ off.toNat ∧ off.toNat < (regOffset r).toNat + 4 := by
  refine ⟨regAt_cases, fun h => ?_⟩
  rw [regOffset_val] at h
  cases hr : regAt off with
  | none =>
    rw [regAt_eq_none_iff] at hr
    exfalso
    cases r <;> dsimp only at h <;> omega
  | some r' =>
    have h' := regAt_cases hr
    rw [regOffset_val] at h'
    cases r <;> cases r' <;> dsimp only at h h' <;>
      first
      | rfl
      | (exfalso; omega)
      | (congr 2; apply Fin.ext; omega)
/-- The writable offsets are the aligned ones at a register the host may write. -/
theorem writableOffset_iff (off : Offset) :
    WritableOffset off ↔ off.toNat % 4 = 0 ∧ ∃ r, regAt off = some r ∧ regWritable r = true := by
  have := off.isLt
  constructor
  · rintro ⟨h4, h⟩
    refine ⟨h4, ?_⟩
    cases hr : regAt off with
    | none => rw [regAt_eq_none_iff] at hr; omega
    | some r =>
      refine ⟨r, rfl, ?_⟩
      have h' := regAt_cases hr
      rw [regOffset_val] at h'
      cases r <;> first | rfl | (exfalso; dsimp only at h'; omega)
  · rintro ⟨h4, r, hr, hw⟩
    refine ⟨h4, ?_⟩
    have h' := regAt_cases hr
    rw [regOffset_val] at h'
    cases r <;> first | (cases hw; done) | (dsimp only at h'; omega)

/-- The readable offsets are the aligned ones at a register other than CMD. -/
theorem readableOffset_iff (off : Offset) :
    ReadableOffset off ↔ off.toNat % 4 = 0 ∧ ∃ r, regAt off = some r ∧ r ≠ .cmd := by
  have := off.isLt
  constructor
  · rintro ⟨h4, h⟩
    refine ⟨h4, ?_⟩
    cases hr : regAt off with
    | none => rw [regAt_eq_none_iff] at hr; omega
    | some r =>
      refine ⟨r, rfl, ?_⟩
      rintro rfl
      have h' := regAt_cases hr
      rw [regOffset_val] at h'
      dsimp only at h'
      omega
  · rintro ⟨h4, r, hr, hw⟩
    refine ⟨h4, ?_⟩
    have h' := regAt_cases hr
    rw [regOffset_val] at h'
    cases r <;> first | exact absurd rfl hw | (dsimp only at h'; omega)

end Sys2Proof.Laws
end

