-- ==== Sys2Proof/Tests/Slice0.lean ====
section
/-! SUPPORT. The model's own tests: words written out from the opcode map, small runs of one step with the values the spec
gives (95_test_vectors.md), and a witness for the hypotheses of each statement that has some. -/

namespace Sys2Proof.Tests

open Sys2Proof.Machine

/-! ### Decoding: one word for each row, written out from R46 and R49, and words that are no command -/

theorem test_decode_init : decode 0b00000000000000000000000000000001#32 = .ok .init := by decide
theorem test_decode_encrypt : decode 0b00000000000000000000000000000010#32 = .ok .encrypt := by decide
theorem test_decode_expand0Key : decode 0b00000000000000000000000000000011#32 = .ok .expand0Key := by decide
theorem test_decode_expand0Salt : decode 0b00000000000000000000000000000100#32 = .ok .expand0Salt := by decide
theorem test_decode_expandKeySalt : decode 0b00000000000000000000000000000101#32 = .ok .expandKeySalt := by decide
theorem test_decode_eksLoop : decode 0b00000000000000000000000000000110#32 = .ok .eksLoop := by decide
theorem test_decode_digest : decode 0b00000000000000000000000000000111#32 = .ok .digest := by decide
theorem test_decode_bcrypt : decode 0b00000000000000000000000000001000#32 = .ok .bcrypt := by decide
theorem test_decode_highest_reserved_op : decode 0x000000FF#32 = .error .reservedOp := by decide
theorem test_decode_top_reserved_bit : decode 0x80000001#32 = .error .reservedBits := by decide
theorem test_table_word_wide : decodeTableWord 64 0x100000001 = none := by decide

/-! ### Smoke: the well-formedness check refuses the ill-formed -/

theorem test_illformed_zero : wellFormedCommandWord 0x00000000#32 = false := by decide
theorem test_illformed_op : wellFormedCommandWord 0x00000009#32 = false := by decide
theorem test_illformed_rsvd : wellFormedCommandWord 0x00000101#32 = false := by decide
theorem test_wellformed_bcrypt : wellFormedCommandWord 0x00000008#32 = true := by decide

/-! ### Helpers -/

/-- The next state of an outcome; the reset state where there is none. -/
def nextOr (o : Host.Outcome State Fault Refusal) : State :=
  match o with
  | .next t => t
  | .fault _ => State.reset
  | .refused _ => State.reset

/-- A seeded block in the canonical state whose operands are all written: key 00 of length 1, the salt of vector V1,
cost 4, the block (0, 0). -/
def ready : State :=
  { State.reset with
    cipher := canonicalCipher
    cost := 4
    keylen := 1
    saltw := #v[0x144B3D69, 0x1A7B4ECF, 0x39CF735C, 0x7FA7A79C]
    valid := ⟨true, false, true, true, 0b1111, 0x3FFFF⟩ }

/-- `ready` with command i accepted. -/
def running (i : Instr) : State := ready.acceptCommand (encode i)

/-- What STATUS reads after the running command of s completes. -/
def statusAfter (s : State) : Word := (nextOr (step s)).statusWord

/-! ### One or two values a command, from 95_test_vectors.md -/

/-- I1. -/
theorem test_init_status : statusAfter (State.reset.withFetchWord 32 0x1) = 0x00010002 := by decide
/-- I1 and R60's worked example. -/
theorem test_init_words :
    (nextOr (step (State.reset.withFetchWord 32 0x1))).cipher.p[17] = 0x8979FB1B
      ∧ (nextOr (step (State.reset.withFetchWord 32 0x1))).cipher.sbox[3][255] = 0x3AC372E6 := by
  decide +kernel
/-- E1. -/
theorem test_encrypt_zero_block :
    (nextOr (exec .encrypt (running .encrypt))).dl = 0x706D9FCC
      ∧ (nextOr (exec .encrypt (running .encrypt))).dr = 0x1792D23A := by
  decide +kernel
/-- E7: nothing written since reset. -/
theorem test_encrypt_uninit : statusAfter (State.reset.withFetchWord 32 0x2) = 0x0002040E := by decide
/-- K1: PW1 after EXPAND0_KEY with the key 00. -/
theorem test_expand0Key_second_word :
    (nextOr (exec .expand0Key (running .expand0Key))).cipher.p[1] = 0x1792D23A := by
  decide +kernel
/-- K11: KEYLEN is reported before UNINIT and NOSTATE. -/
theorem test_expand0Key_keylen_first : statusAfter (State.reset.withFetchWord 32 0x3) = 0x0003030E := by decide
/-- S1: PW1 after EXPAND0_SALT with the salt of V1. -/
theorem test_expand0Salt_second_word :
    (nextOr (exec .expand0Salt (running .expand0Salt))).cipher.p[1] = 0x131D592F := by
  decide +kernel
/-- S3. -/
theorem test_expand0Salt_uninit :
    statusAfter { running .expand0Salt with valid := { ready.valid with saltv := 0b0111 } } = 0x0004040E := by
  decide
/-- X1: PW1 after EXPAND_KEY_SALT with the key 00 and the salt of V1. -/
theorem test_expandKeySalt_second_word :
    (nextOr (exec .expandKeySalt (running .expandKeySalt))).cipher.p[1] = 0xCAC7618F := by
  decide +kernel
/-- X3. -/
theorem test_expandKeySalt_uninit :
    statusAfter { running .expandKeySalt with valid := { ready.valid with saltv := 0b1110 } } = 0x0005040E := by
  decide
/-- L3. -/
theorem test_eksLoop_cost : statusAfter { running .eksLoop with cost := 3 } = 0x0006020E := by decide
/-- L9: valid operands, no INIT. -/
theorem test_eksLoop_nostate :
    statusAfter { running .eksLoop with valid := { ready.valid with sv := false } } = 0x0006050E := by
  decide
/-- G5. -/
theorem test_digest_nostate : statusAfter (State.reset.withFetchWord 32 0x7) = 0x0007050E := by decide
/-- R75: CV is set and STATUS reads DONE. -/
theorem test_digest_completes :
    statusAfter (running .digest) = 0x00070002 ∧ (nextOr (step (running .digest))).valid.cv = true := by
  decide
/-- B6 at the upper bound. -/
theorem test_bcrypt_cost : statusAfter { running .bcrypt with cost := 32 } = 0x0008020E := by decide
/-- B8: BCRYPT does not need a seeded block. -/
theorem test_bcrypt_unseeded :
    statusAfter { running .bcrypt with valid := { ready.valid with sv := false } } = 0x00080002 := by
  decide
/-- I3: RSVD is not zero. -/
theorem test_illegal_word : statusAfter (ready.acceptCommand 0x00000101#32) = 0x0001010E := by decide
/-- F3. -/
theorem test_roundF : canonicalCipher.roundF 0x01020304 = 0x3CEDFF8C := by decide +kernel

/-! ### The bus: H2, H4, H5, H6, H7 and R39 -/

theorem test_write_status_is_busError :
    (State.hostWrite 32 0x004 0 ready).response = some .busError := by decide
theorem test_narrow_access_is_busError : (State.hostRead 16 0x040 ready).response = some .busError := by decide
theorem test_misaligned_access_is_busError :
    (State.hostRead 32 0x041 ready).response = some .busError := by decide
theorem test_busy_write_sets_ovr :
    (State.hostWrite 32 0x014 7 (running .bcrypt)).statusWord = 0x00080011
      ∧ (State.hostWrite 32 0x014 7 (running .bcrypt)).dl = 0 := by
  decide
theorem test_busy_status_write_keeps_ovr :
    (State.hostWrite 32 0x004 7 (running .bcrypt)).status.ovr = false := by decide
theorem test_valid_word : ready.validWord = 0x03FFFFFD := by decide
theorem test_read_last_sbox_word : (State.hostRead 32 0x1FFC ready).response = some (.data 0x3AC372E6) := by
  decide +kernel
theorem test_unwritten_word_is_a_draw :
    (State.hostRead 32 0x084 State.reset).response = some (.data (Config.freeWord 0))
      ∧ (State.hostRead 32 0x084 State.reset).draws = 1 := ⟨rfl, rfl⟩

/-! ### The host's side -/

/-- The first four characters of V1's salt text give its first three bytes, and decoding stops at `$` (R90). -/
theorem test_decode64_first_bytes : decode64 ['D', 'C', 'q', '7', '$', 'P'] 16 = .ok [0x14, 0x4B, 0x3D] := by
  decide +kernel
/-- R97. -/
theorem test_legacy_refused : prepareKey .v2x [0x61] = .error .legacyRefused := by decide
/-- R84. -/
theorem test_empty_key_refused : prepareKey .v2 [] = .error .emptyKey := by decide

/-! ### Witnesses: concrete states that meet the hypotheses of the statements together -/

theorem witness_operands_valid :
    ready.CostValid ∧ ready.KeylenValid ∧ ready.KeyWritten ∧ ready.SaltWritten ∧ ready.BlockWritten
      ∧ ready.Seeded := by
  decide

/-- The bounds of COST and KEYLEN: 31 and 72, every key word written. -/
theorem witness_operands_at_upper_bounds :
    ({ ready with cost := 31, keylen := 72 } : State).CostValid
      ∧ ({ ready with cost := 31, keylen := 72 } : State).KeylenValid
      ∧ ({ ready with cost := 31, keylen := 72 } : State).KeyWritten := by
  decide

/-- EXPAND0_KEY needs only the key words it reads: KEYLEN 4, KEYW0 written, no other (K9). -/
theorem witness_one_key_word :
    ({ ready with keylen := 4, valid := { ready.valid with keyv := 1 } } : State).KeyWritten := by
  decide

theorem witness_wellFormed : Instr.wellFormed .bcrypt = true := rfl

theorem witness_idle_cmd_write :
    ({ ready with events := [.write 32 0x000 0x101, .complete] } : State).sequencer = .idle
      ∧ ({ ready with events := [.write 32 0x000 0x101, .complete] } : State).events
          = .write 32 0x000 0x101 :: .complete :: []
      ∧ IllegalWord 0x101#32 ∧ IllegalWord 0x0#32 ∧ IllegalWord 0x9#32 ∧ ¬ IllegalWord 0x8#32 := by
  decide

/-- KEYLEN 5 wraps inside the second key-stream word: byte 3 of word 1 is key byte 7 mod 5 = 2. -/
theorem witness_key_stream_wrap :
    ({ ready with keylen := 5 } : State).KeylenValid
      ∧ (2 : Fin 72).val = (4 * (1 : Fin 18).val + (3 : Fin 4).val) % ({ ready with keylen := 5 } : State).keylen.toNat := by
  decide

/-- Keys 41 (length 1) and 41 41 (length 2), vector K2. -/
def keyA : State := { ready with keyw := ready.keyw.set 0 0x41000000, keylen := 1 }
/-- The second of the two. -/
def keyAA : State := { ready with keyw := ready.keyw.set 0 0x41410000, keylen := 2 }

theorem witness_equal_repetition_bytes :
    ∀ n : Fin 72, (∀ a : Fin 72, a.val = n.val % keyA.keylen.toNat → a = 0)
      ∧ (∀ b : Fin 72, b.val = n.val % keyAA.keylen.toNat → b = 0 ∨ b = 1)
      ∧ keyA.keyw[0].extractLsb' 24 8 = keyAA.keyw[0].extractLsb' 24 8
      ∧ keyA.keyw[0].extractLsb' 24 8 = keyAA.keyw[0].extractLsb' 16 8 := by
  decide

theorem witness_equal_repetition_runs :
    keyA.cipher = keyAA.cipher ∧ keyA.saltw = keyAA.saltw ∧ keyA.cost = keyAA.cost
      ∧ keyA.status.err = false ∧ keyAA.status.err = false
      ∧ (nextOr (exec .expand0Key keyA)).status.err = false
      ∧ (nextOr (exec .expand0Key keyAA)).status.err = false :=
  ⟨rfl, rfl, rfl, rfl, rfl, by decide, by decide⟩

theorem witness_completes_command :
    (running .eksLoop).Completes (encode .eksLoop) ∧ decode (encode .eksLoop) = .ok .eksLoop :=
  ⟨⟨rfl, .inl rfl⟩, by decide⟩

theorem witness_completes_with_event :
    ({ running .encrypt with events := [.complete, .reset] } : State).Completes (encode .encrypt) :=
  ⟨rfl, .inr rfl⟩

theorem witness_completes_illegal :
    (ready.acceptCommand 0x100#32).Completes 0x100#32 ∧ IllegalWord 0x100#32 :=
  ⟨⟨rfl, .inl rfl⟩, by decide⟩

/-- Two errors apply, COST and KEYLEN, and COST has the lower place. -/
theorem witness_two_errors_apply :
    Applies .eksLoop { running .eksLoop with cost := 0, keylen := 73 } .cost
      ∧ Applies .eksLoop { running .eksLoop with cost := 0, keylen := 73 } .keylen
      ∧ priority .cost < priority .keylen :=
  ⟨⟨.inl rfl, by decide⟩, ⟨.inr (.inr (.inl rfl)), by decide⟩, by decide⟩

theorem witness_no_error_applies : ∀ e, ¬ Applies .init (running .init) e := by
  intro e he
  cases e <;> simp [Applies] at he

theorem witness_error_raised :
    (running .eksLoop).status.err = false
      ∧ (nextOr (step { running .eksLoop with cost := 3 })).status.err = true := by
  decide

theorem witness_unseeded :
    ¬ ({ running .digest with valid := { ready.valid with sv := false } } : State).Seeded
      ∧ ∀ e, e ≠ .nostate →
          ¬ Applies .digest { running .digest with valid := { ready.valid with sv := false } } e := by
  refine ⟨by decide, fun e hne he => ?_⟩
  cases e <;> simp [Applies] at he hne

/-- INIT on an unseeded block with no earlier NOSTATE in STATUS answers a next state. -/
theorem witness_unseeded_init :
    (State.reset.withFetchWord 32 0x1).status.errcode ≠ .nostate
      ∧ ∃ t, exec .init (State.reset.withFetchWord 32 0x1) = .next t :=
  ⟨by decide, _, rfl⟩

theorem witness_refused_accesses :
    ¬ ReadableOffset 0x000 ∧ ¬ ReadableOffset 0x0B8 ∧ ¬ ReadableOffset 0x042 ∧ ReadableOffset 0x1FFC
      ∧ ¬ WritableOffset 0x004 ∧ ¬ WritableOffset 0x01C ∧ ¬ WritableOffset 0x088 ∧ WritableOffset 0x084 :=
  ⟨by decide, by decide, by decide, by decide, by decide, by decide, by decide, by decide⟩

theorem witness_refused_read :
    ({ ready with events := [.read 8 0x004] } : State).events = .read 8 0x004 :: [] ∧ (8 : Nat) ≠ 32 := by decide

theorem witness_busy_write :
    (running .bcrypt).busy = true ∧ WritableOffset 0x000 ∧ WritableOffset 0x018 ∧ WritableOffset 0x02C := by
  decide

/-- The second clause of the same statement: STATUS, the first CDATA word and a reserved offset. -/
theorem witness_busy_refused_write :
    ({ running .bcrypt with events := [.write 32 0x004 7] } : State).events = .write 32 0x004 7 :: []
      ∧ ¬ WritableOffset 0x004 ∧ ¬ WritableOffset 0x0A0 ∧ ¬ WritableOffset 0x088 := by
  decide

theorem witness_idle_write :
    ready.sequencer = .idle ∧ WritableOffset (regOffset (.keyw 17)) ∧ Reg.keyw 17 ≠ .cmd
      ∧ WritableOffset (regOffset (.saltw 0)) ∧ WritableOffset (regOffset .cost) := by
  decide

/-- Each clause of the two read statements at a boundary offset. -/
theorem witness_read_offsets :
    (0x02C : Offset).toNat = 0x020 + 4 * (3 : Fin 4).val ∧ (0x084 : Offset).toNat = 0x040 + 4 * (17 : Fin 18).val
      ∧ (0x0B4 : Offset).toNat = 0x0A0 + 4 * (5 : Fin 6).val
      ∧ (0x144 : Offset).toNat = 0x100 + 4 * (17 : Fin 18).val
      ∧ (0x1FFC : Offset).toNat = 0x1000 + 4 * (256 * (3 : Fin 4).val + (255 : Fin 256).val)
      ∧ ready.sequencer = .idle ∧ (running .init).busy = true := by
  decide

theorem witness_reset_next :
    ({ running .bcrypt with events := [.reset] } : State).events = .reset :: [] := rfl

/-- STATUS and VALID of a block right after reset, and of one that has run a command. -/
theorem witness_consistent : ({ ready with status := ⟨true, false, false, false, .ok, 1⟩ } : State).Consistent := by
  refine ⟨by decide, by decide, by decide, ?_, ?_⟩
  · intro w h
    cases h
  · intro _ h
    cases h

/-- Two states that differ in an unwritten word agree. -/
theorem witness_agree :
    State.reset.Agree { State.reset with dl := 5, keyw := State.reset.keyw.set 3 9 }
      ∧ State.reset ≠ { State.reset with dl := 5, keyw := State.reset.keyw.set 3 9 } := by
  refine ⟨⟨rfl, rfl, rfl, rfl, rfl, rfl, rfl, rfl, ?_, ?_, ?_, ?_, ?_, ?_⟩, ?_⟩
  · intro h; cases h
  · intro h; cases h
  · intro h; cases h
  · intro h; cases h
  · intro k h; simp [State.reset] at h
  · intro w h; simp [State.reset] at h
  · intro h
    have h2 := congrArg State.dl h
    revert h2
    decide

/-- INIT on a block just reset changes the cipher state, and its completion is the next event. -/
theorem witness_cipher_changes :
    (nextOr (step (State.reset.withFetchWord 32 0x1))).cipher.p[0] ≠ (State.reset.withFetchWord 32 0x1).cipher.p[0]
      ∧ ¬ (State.reset.withFetchWord 32 0x1).ResetNext := by
  decide

theorem witness_results_change :
    (nextOr (step (running .digest))).valid.cv ≠ (running .digest).valid.cv
      ∧ (nextOr (step (State.reset.withFetchWord 32 0x1))).valid.sv ≠ (State.reset.withFetchWord 32 0x1).valid.sv
      ∧ ¬ (running .digest).ResetNext := by
  decide

/-- A write changes COST, KEYLEN, DL, DR, a salt word and a key word. -/
theorem witness_operands_change :
    (nextOr (step { ready with events := [.write 32 0x00C 9] })).cost ≠ ready.cost
      ∧ (nextOr (step { ready with events := [.write 32 0x010 9] })).keylen ≠ ready.keylen
      ∧ (nextOr (step { ready with events := [.write 32 0x014 9] })).dl ≠ ready.dl
      ∧ (nextOr (step { ready with events := [.write 32 0x018 9] })).dr ≠ ready.dr
      ∧ (nextOr (step { ready with events := [.write 32 0x02C 9] })).saltw[3] ≠ ready.saltw[3]
      ∧ (nextOr (step { ready with events := [.write 32 0x084 9] })).keyw[17] ≠ ready.keyw[17] := by
  decide

theorem witness_table_word : decodeTableWord 32 0x5 = some .expandKeySalt := by decide

theorem witness_both_orders :
    (running .encrypt).sequencer = .running (encode .encrypt)
      ∧ ({ running .encrypt with events := [.write 32 0x014 5, .complete] } : State).events
          = .write 32 0x014 5 :: .complete :: [] := by
  decide

theorem witness_other_block :
    ∃ sys', System.stepBlock ⟨[⟨0, ready⟩, ⟨0x2000, State.reset⟩], by decide⟩ 0 = .next sys' := ⟨_, rfl⟩

theorem witness_long_key :
    (List.replicate 72 (0x7F : Byte)).length = 72 ∧ ∀ x ∈ List.replicate 72 (0x7F : Byte), x.toNat < 0x80 := by
  decide

/-- The 72nd byte of a 2a key decides the refusal of R97. -/
theorem test_legacy_last_key_byte :
    prepareKey .v2a (List.replicate 71 0x41 ++ [0x80]) = .error .legacyRefused := by decide

/-- A running command, a rejected write and a read to come, and no reset input. -/
theorem witness_running_without_reset :
    ({ running .encrypt with events := [.write 32 0x014 5, .read 32 0x004] } : State).sequencer
        = .running (encode .encrypt)
      ∧ Event.reset ∉ ({ running .encrypt with events := [.write 32 0x014 5, .read 32 0x004] } : State).events := by
  decide

theorem witness_codec_input : ([0x14, 0x4B] : List Byte) ≠ [] := by decide

end Sys2Proof.Tests
end

section
/-! The layer of facts about storage and steps that the statements on 10_state.md share: which stored words and valid bits
each operation leaves alone, and one inversion lemma for what a step other than reset can do to them. -/

namespace Sys2Proof.Proofs

open Sys2Proof.Machine Sys2Proof.Laws

/-- t holds the stored words and the valid bits of s: they may differ in STATUS, the sequencer and the model's own fields. -/
structure SameStorage (s t : State) : Prop where
  cipher : t.cipher = s.cipher
  dl : t.dl = s.dl
  dr : t.dr = s.dr
  cost : t.cost = s.cost
  keylen : t.keylen = s.keylen
  keyw : t.keyw = s.keyw
  saltw : t.saltw = s.saltw
  cdata : t.cdata = s.cdata
  valid : t.valid = s.valid

theorem SameStorage.trans {s t u : State} (h : SameStorage s t) (h' : SameStorage t u) : SameStorage s u :=
  ⟨h'.cipher.trans h.cipher, h'.dl.trans h.dl, h'.dr.trans h.dr, h'.cost.trans h.cost, h'.keylen.trans h.keylen,
    h'.keyw.trans h.keyw, h'.saltw.trans h.saltw, h'.cdata.trans h.cdata, h'.valid.trans h.valid⟩

theorem SameStorage.refl (s : State) : SameStorage s s := by
  constructor <;> rfl

theorem sameStorage_events (s : State) (es : List Event) : SameStorage s { s with events := es } := by
  constructor <;> rfl

theorem sameStorage_respond (r : Response) (s : State) : SameStorage s (s.respond r) := by
  constructor <;> simp

theorem sameStorage_rejectWrite (s : State) : SameStorage s s.rejectWrite := by
  constructor <;> simp

/-- R106: an error changes no operand and no result. -/
theorem sameStorage_raiseError (c : ErrCode) (s : State) : SameStorage s (s.raiseError c) := by
  constructor <;> simp

theorem sameStorage_hostRead (width : Nat) (off : Offset) (s : State) : SameStorage s (s.hostRead width off) := by
  rcases hostRead_cases width off s with h | ⟨r, v, -, -, -, h⟩ | ⟨r, -, -, -, h⟩ <;> rw [h]
  · exact sameStorage_respond _ s
  · exact sameStorage_respond _ s
  · constructor <;> rfl

/-! ### What the store of one register leaves alone -/

@[simp] theorem storeReg_cipher (r : Reg) (v : Word) (s : State) : (s.storeReg r v).cipher = s.cipher := by
  cases r <;> rfl

@[simp] theorem storeReg_cdata (r : Reg) (v : Word) (s : State) : (s.storeReg r v).cdata = s.cdata := by
  cases r <;> rfl

@[simp] theorem storeReg_sv (r : Reg) (v : Word) (s : State) : (s.storeReg r v).valid.sv = s.valid.sv := by
  cases r <;> rfl

@[simp] theorem storeReg_cv (r : Reg) (v : Word) (s : State) : (s.storeReg r v).valid.cv = s.valid.cv := by
  cases r <;> rfl

theorem storeReg_status {r : Reg} (hr : r ≠ .cmd) (v : Word) (s : State) :
    (s.storeReg r v).status = s.status := by
  cases r with
  | cmd => exact absurd rfl hr
  | _ => rfl

theorem storeReg_sequencer {r : Reg} (hr : r ≠ .cmd) (v : Word) (s : State) :
    (s.storeReg r v).sequencer = s.sequencer := by
  cases r with
  | cmd => exact absurd rfl hr
  | _ => rfl

theorem eq_cost_of_storeReg {r : Reg} {v : Word} {s : State} (h : (s.storeReg r v).cost ≠ s.cost) : r = .cost := by
  cases r with
  | cost => rfl
  | _ => exact absurd rfl h

theorem eq_keylen_of_storeReg {r : Reg} {v : Word} {s : State} (h : (s.storeReg r v).keylen ≠ s.keylen) :
    r = .keylen := by
  cases r with
  | keylen => rfl
  | _ => exact absurd rfl h

theorem eq_dl_of_storeReg {r : Reg} {v : Word} {s : State} (h : (s.storeReg r v).dl ≠ s.dl) : r = .dl := by
  cases r with
  | dl => rfl
  | _ => exact absurd rfl h

theorem eq_dr_of_storeReg {r : Reg} {v : Word} {s : State} (h : (s.storeReg r v).dr ≠ s.dr) : r = .dr := by
  cases r with
  | dr => rfl
  | _ => exact absurd rfl h

theorem eq_saltw_of_storeReg {r : Reg} {v : Word} {s : State} {k : Fin 4}
    (h : (s.storeReg r v).saltw[k] ≠ s.saltw[k]) : r = .saltw k := by
  cases r with
  | saltw j =>
    by_contra hne
    exact h (Vector.getElem_set_ne j.isLt k.isLt fun hjk => hne (congrArg Reg.saltw (Fin.ext hjk)))
  | _ => exact absurd rfl h

theorem eq_keyw_of_storeReg {r : Reg} {v : Word} {s : State} {w : Fin 18}
    (h : (s.storeReg r v).keyw[w] ≠ s.keyw[w]) : r = .keyw w := by
  cases r with
  | keyw j =>
    by_contra hne
    exact h (Vector.getElem_set_ne j.isLt w.isLt fun hjw => hne (congrArg Reg.keyw (Fin.ext hjw)))
  | _ => exact absurd rfl h

theorem storeReg_events (r : Reg) (v : Word) (s : State) (es : List Event) :
    State.storeReg r v { s with events := es } = { s.storeReg r v with events := es } := by
  cases r <;> rfl

/-! ### What a command leaves alone -/

/-- What command i leaves alone, by R60, R61, R67 to R69, R72, R75 and R76: t is a state i may leave from s. -/
structure CommandFrame (i : Instr) (s t : State) : Prop where
  cipher : i = .encrypt ∨ i = .digest → t.cipher = s.cipher
  block : i ≠ .encrypt → t.dl = s.dl ∧ t.dr = s.dr
  digest : i ≠ .digest ∧ i ≠ .bcrypt → t.cdata = s.cdata ∧ t.valid.cv = s.valid.cv
  seeded : i ≠ .init ∧ i ≠ .bcrypt → t.valid.sv = s.valid.sv
  cost : t.cost = s.cost
  keylen : t.keylen = s.keylen
  keyw : t.keyw = s.keyw
  saltw : t.saltw = s.saltw

theorem SameStorage.commandFrame {s t : State} (h : SameStorage s t) (i : Instr) : CommandFrame i s t :=
  ⟨fun _ => h.cipher, fun _ => ⟨h.dl, h.dr⟩, fun _ => ⟨h.cdata, congrArg Valid.cv h.valid⟩,
    fun _ => congrArg Valid.sv h.valid, h.cost, h.keylen, h.keyw, h.saltw⟩

theorem commandFrame_raiseError (i : Instr) (c : ErrCode) (s : State) : CommandFrame i s (s.raiseError c) :=
  (sameStorage_raiseError c s).commandFrame i

theorem exec_frame {i : Instr} {s t : State} (h : exec i s = .next t) : CommandFrame i s t := by
  cases i with
  | init =>
    rw [execInit_eq] at h
    cases h
    constructor <;> simp
  | encrypt =>
    rcases execEncrypt_cases h with ⟨c, -, rfl⟩ | ⟨-, -, rfl⟩
    · exact commandFrame_raiseError _ c s
    · constructor <;> simp
  | expand0Key =>
    rcases execExpand0Key_cases h with ⟨c, -, rfl⟩ | ⟨-, -, -, rfl⟩
    · exact commandFrame_raiseError _ c s
    · constructor <;> simp
  | expand0Salt =>
    rcases execExpand0Salt_cases h with ⟨c, -, rfl⟩ | ⟨-, -, rfl⟩
    · exact commandFrame_raiseError _ c s
    · constructor <;> simp
  | expandKeySalt =>
    rcases execExpandKeySalt_cases h with ⟨c, -, rfl⟩ | ⟨-, -, -, -, rfl⟩
    · exact commandFrame_raiseError _ c s
    · constructor <;> simp
  | eksLoop =>
    rcases execEksLoop_cases h with ⟨c, -, rfl⟩ | ⟨-, -, -, -, -, rfl⟩
    · exact commandFrame_raiseError _ c s
    · constructor <;> simp
  | digest =>
    rcases execDigest_cases h with rfl | ⟨-, rfl⟩
    · exact commandFrame_raiseError _ _ s
    · constructor <;> simp
  | bcrypt =>
    rcases execBcrypt_cases h with ⟨c, -, rfl⟩ | ⟨-, -, -, -, rfl⟩
    · exact commandFrame_raiseError _ c s
    · constructor <;> simp

/-! ### What a step other than reset can do to the storage -/

/-- The next event is a legal host write of register r, and the block is idle. -/
def WritesIdle (s : State) (r : Reg) : Prop :=
  s.sequencer = .idle ∧ ∃ o v, s.events.head? = some (.write 32 o v) ∧ o.toNat = (regOffset r).toNat

theorem regOffset_mod_four (r : Reg) : (regOffset r).toNat % 4 = 0 := by
  rw [regOffset_val]
  cases r <;> dsimp only <;> omega

/-- A legal access reaches a register at the register's own offset (R33). -/
theorem toNat_eq_regOffset {width : Nat} {off : Offset} {r : Reg} (hl : accessLegal width off = true)
    (hr : regAt off = some r) : width = 32 ∧ off.toNat = (regOffset r).toNat := by
  obtain ⟨hw, ha⟩ := (accessLegal_iff width off).1 hl
  have hrange := regAt_cases hr
  have haligned := regOffset_mod_four r
  exact ⟨hw, by omega⟩

theorem hostWrite_storage_cases (width : Nat) (off : Offset) (v : Word) (s : State) :
    SameStorage s (s.hostWrite width off v)
      ∨ ∃ r, s.sequencer = .idle ∧ width = 32 ∧ off.toNat = (regOffset r).toNat
          ∧ SameStorage (s.storeReg r v) (s.hostWrite width off v) := by
  rcases hostWrite_cases width off v s with h | ⟨r, -, -, -, -, h⟩ | ⟨r, hl, hr, -, hb, h⟩ <;> rw [h]
  · exact .inl (sameStorage_respond _ s)
  · exact .inl ((sameStorage_rejectWrite s).trans (sameStorage_respond _ _))
  · obtain ⟨hwidth, hoff⟩ := toNat_eq_regOffset hl hr
    exact .inr ⟨r, (busy_eq_false_iff s).1 hb, hwidth, hoff, sameStorage_respond _ _⟩

/-- A completion leaves the storage alone, or keeps the frame of the running command. -/
theorem completeCommand_storage_cases {s t : State} (h : s.completeCommand = .next t) :
    SameStorage s t ∨ ∃ w i, s.sequencer = .running w ∧ decode w = .ok i ∧ CommandFrame i s t := by
  rcases completeCommand_cases h with ⟨-, rfl⟩ | ⟨w, i, hq, hd, he⟩ | ⟨w, e, -, -, rfl⟩
  · exact .inl (SameStorage.refl _)
  · exact .inr ⟨w, i, hq, hd, exec_frame he⟩
  · exact .inl (sameStorage_raiseError _ s)

/-- Everything a step other than reset can do to the stored words and the valid bits. -/
theorem step_storage_cases {s t : State} (h : step s = .next t) (hr : ¬ s.ResetNext) :
    SameStorage s t ∨ (∃ i, s.CompletesCommand i ∧ CommandFrame i s t)
      ∨ ∃ r v, WritesIdle s r ∧ SameStorage (s.storeReg r v) t := by
  rcases step_cases h with ⟨he, h⟩ | ⟨rest, he, h⟩ | ⟨width, off, rest, he, rfl⟩ | ⟨width, off, v, rest, he, rfl⟩ |
    ⟨rest, he, -⟩
  · rcases completeCommand_storage_cases h with h | ⟨w, i, hq, hd, hf⟩
    · exact .inl h
    · exact .inr (.inl ⟨i, ⟨w, ⟨hq, .inl he⟩, hd⟩, hf⟩)
  · rcases completeCommand_storage_cases h with h | ⟨w, i, hq, hd, hf⟩
    · exact .inl ((sameStorage_events s rest).trans h)
    · exact .inr (.inl ⟨i, ⟨w, ⟨hq, .inr (by rw [he]; rfl)⟩, hd⟩,
        ⟨hf.cipher, hf.block, hf.digest, hf.seeded, hf.cost, hf.keylen, hf.keyw, hf.saltw⟩⟩)
  · exact .inl ((sameStorage_events s rest).trans (sameStorage_hostRead width off _))
  · rcases hostWrite_storage_cases width off v { s with events := rest } with h | ⟨r, hq, rfl, hoff, h⟩
    · exact .inl ((sameStorage_events s rest).trans h)
    · rw [storeReg_events] at h
      exact .inr (.inr ⟨r, v, ⟨hq, off, v, by rw [he]; rfl, hoff⟩, (sameStorage_events _ rest).trans h⟩)
  · exact absurd (congrArg List.head? he) hr

/-! ### Who may change what (R14, R15, R17, R19 to R22, R25) -/

/-- Settles O40: a step that changes P or S is the completion of a command, and ENCRYPT and DIGEST keep both. -/
theorem onlySixCommandsChangeCipherState : Obligations.OnlySixCommandsChangeCipherState := by
  intro s t h hne hr
  rcases step_storage_cases h hr with hs | ⟨i, hc, hf⟩ | ⟨r, v, -, hs⟩
  · exact absurd hs.cipher hne
  · refine ⟨i, hc, ?_⟩
    cases i with
    | encrypt => exact absurd (hf.cipher (.inl rfl)) hne
    | digest => exact absurd (hf.cipher (.inr rfl)) hne
    | _ => simp
  · exact absurd (hs.cipher.trans (storeReg_cipher r v s)) hne

/-- If the completing command changes what every command but a and b keeps, it is a or b. -/
theorem completes_or_of_changed {s : State} {i a b : Instr} {P : Prop} (hc : s.CompletesCommand i)
    (hkeep : i ≠ a ∧ i ≠ b → P) (hchanged : ¬ P) : s.CompletesCommand a ∨ s.CompletesCommand b := by
  by_cases ha : i = a
  · exact .inl (ha ▸ hc)
  · by_cases hb : i = b
    · exact .inr (hb ▸ hc)
    · exact absurd (hkeep ⟨ha, hb⟩) hchanged

/-- Settles O41: no host access changes CDATA, CV or SV, and of the commands only their own do. -/
theorem onlyTheirCommandsChangeResults : Obligations.OnlyTheirCommandsChangeResults := by
  intro s t h hr
  rcases step_storage_cases h hr with hs | ⟨i, hc, hf⟩ | ⟨r, v, -, hs⟩
  · simp [hs.cdata, hs.valid]
  · exact ⟨fun hne => completes_or_of_changed hc hf.digest (not_and_or.2 hne),
      completes_or_of_changed hc hf.seeded⟩
  · simp [hs.cdata, hs.valid]

/-- The offset of the write as the number of R31's map. -/
theorem WritesIdle.offset {s : State} {r : Reg} (h : WritesIdle s r) {n : Nat} (hn : (regOffset r).toNat = n) :
    s.sequencer = .idle ∧ ∃ o v, s.events.head? = some (.write 32 o v) ∧ o.toNat = n :=
  hn ▸ h

/-- Settles O42: of the steps other than reset, only the store of an operand's own register changes it, and for DL and DR
the completion of ENCRYPT. -/
theorem operandsChangeOnlyByTheirWriters : Obligations.OperandsChangeOnlyByTheirWriters := by
  intro s t h hr
  rcases step_storage_cases h hr with hs | ⟨i, hc, hf⟩ | ⟨r, v, hw, hs⟩
  · simp [hs.cost, hs.keylen, hs.dl, hs.dr, hs.saltw, hs.keyw]
  · by_cases hi : i = .encrypt
    · subst hi
      simp [hf.cost, hf.keylen, hf.saltw, hf.keyw, hc]
    · simp [hf.cost, hf.keylen, hf.saltw, hf.keyw, hf.block hi]
  · rw [hs.cost, hs.keylen, hs.dl, hs.dr, hs.saltw, hs.keyw]
    refine ⟨fun hne => ?_, fun hne => ?_, fun hne => .inl ?_, fun hne => .inl ?_, fun k hne => ?_, fun w hne => ?_⟩
    · cases eq_cost_of_storeReg hne
      exact hw.offset rfl
    · cases eq_keylen_of_storeReg hne
      exact hw.offset rfl
    · cases eq_dl_of_storeReg hne
      exact hw.offset rfl
    · cases eq_dr_of_storeReg hne
      exact hw.offset rfl
    · cases eq_saltw_of_storeReg hne
      exact hw.offset (regOffset_val _)
    · cases eq_keyw_of_storeReg hne
      exact hw.offset (regOffset_val _)

/-! ### Consistency of STATUS and VALID is kept by every step (R17, R25, R27, R110, R111) -/

/-- Consistency speaks only of STATUS, SV, CV and the sequencer. -/
theorem consistent_congr {s t : State} (h : s.Consistent) (hstatus : t.status = s.status)
    (hsv : t.valid.sv = s.valid.sv) (hcv : t.valid.cv = s.valid.cv) (hseq : t.sequencer = s.sequencer) :
    t.Consistent := by
  simpa only [State.Consistent, State.statusWord, State.busy, hstatus, hsv, hcv, hseq] using h

theorem consistent_respond {s : State} (h : s.Consistent) (r : Response) : (s.respond r).Consistent :=
  consistent_congr h (by simp) (by simp) (by simp) (by simp)

/-- An idle block with DONE = 1 is consistent when its error fields tell one story and CDATA is valid only if seeded. -/
theorem consistent_of_done {s : State} (hseq : s.sequencer = .idle) (hdone : s.status.done = true)
    (herr : s.status.err = true ↔ s.status.errcode ≠ .ok) (hsticky : s.status.err = true → s.status.sticky = true)
    (hcv : s.valid.cv = true → s.valid.sv = true) : s.Consistent := by
  refine ⟨herr, fun he => ⟨hdone, hsticky he⟩, hcv, fun w hw => ?_, fun _ hd => ?_⟩
  · rw [hseq] at hw
    cases hw
  · rw [hdone] at hd
    cases hd

theorem consistent_raiseError {s : State} (h : s.Consistent) {c : ErrCode} (hc : c ≠ .ok) :
    (s.raiseError c).Consistent := by
  obtain ⟨-, -, hcv, -, -⟩ := h
  exact consistent_of_done (by simp) (by simp) (by simp [hc]) (by simp) (by simpa using hcv)

theorem consistent_exec {i : Instr} {s t : State} (h : s.Consistent) (he : exec i s = .next t) : t.Consistent := by
  rcases exec_cases he with ⟨c, hc, -, rfl⟩ | ⟨hseq, hstatus, -, -, -, -, -, -, -, hvalid⟩
  · exact consistent_raiseError h hc
  · obtain ⟨herr, hsticky, hcv, -, -⟩ := h
    refine consistent_of_done hseq (by rw [hstatus]) (by rwa [hstatus]) ?_ ?_
    · rw [hstatus]
      exact fun hs => (hsticky hs).2
    · rcases hvalid with hv | hv | ⟨hsv, hv⟩ | hv <;> rw [hv]
      · exact hcv
      · exact fun _ => rfl
      · exact fun _ => hsv
      · exact fun _ => rfl

theorem consistent_completeCommand {s t : State} (h : s.Consistent) (hc : s.completeCommand = .next t) :
    t.Consistent := by
  rcases completeCommand_cases hc with ⟨-, rfl⟩ | ⟨w, i, -, -, he⟩ | ⟨w, e, -, -, rfl⟩
  · exact h
  · exact consistent_exec h he
  · exact consistent_raiseError h (by decide)

theorem consistent_acceptCommand {s : State} (h : s.Consistent) (w : Word) : (s.acceptCommand w).Consistent := by
  obtain ⟨-, -, hcv, -, -⟩ := h
  refine ⟨by simp, by simp, by simpa using hcv, fun w' hw => ?_, fun hidle => ?_⟩
  · cases hw
    simp
  · simp at hidle

theorem consistent_storeReg {s : State} (h : s.Consistent) (r : Reg) (v : Word) : (s.storeReg r v).Consistent := by
  by_cases hr : r = .cmd
  · subst hr
    exact consistent_acceptCommand h v
  · exact consistent_congr h (storeReg_status hr v s) (by simp) (by simp) (storeReg_sequencer hr v s)

/-- A write is rejected only while busy, where DONE and LASTOP are the running command's and OVR is free (R130). -/
theorem consistent_rejectWrite {s : State} (h : s.Consistent) (hb : s.busy = true) : s.rejectWrite.Consistent := by
  obtain ⟨herr, hsticky, hcv, hrun, -⟩ := h
  refine ⟨by simpa using herr, by simpa using hsticky, by simpa using hcv, by simpa using hrun, fun hidle => ?_⟩
  rw [rejectWrite_sequencer, ← busy_eq_false_iff, hb] at hidle
  cases hidle

theorem consistent_hostRead {s : State} (h : s.Consistent) (width : Nat) (off : Offset) :
    (s.hostRead width off).Consistent := by
  rcases hostRead_cases width off s with hs | ⟨r, v, -, -, -, hs⟩ | ⟨r, -, -, -, hs⟩ <;> rw [hs]
  · exact consistent_respond h _
  · exact consistent_respond h _
  · exact consistent_congr h rfl rfl rfl rfl

theorem consistent_hostWrite {s : State} (h : s.Consistent) (width : Nat) (off : Offset) (v : Word) :
    (s.hostWrite width off v).Consistent := by
  rcases hostWrite_cases width off v s with hs | ⟨r, -, -, -, hb, hs⟩ | ⟨r, -, -, -, -, hs⟩ <;> rw [hs]
  · exact consistent_respond h _
  · exact consistent_respond (consistent_rejectWrite h hb) _
  · exact consistent_respond (consistent_storeReg h r v) _

theorem consistent_resetInput (s : State) : s.resetInput.Consistent := by
  refine ⟨by simp [State.reset], by simp [State.reset], by simp [State.reset], by simp, fun _ _ => ?_⟩
  exact ⟨by simp only [State.statusWord, State.busy, resetInput_status, resetInput_sequencer]; rfl, rfl, rfl⟩

/-- Settles O37, by the event of the step: a completion, a host read, a host write or the reset input. -/
theorem everyStepKeepsConsistency : Obligations.EveryStepKeepsConsistency := by
  intro s t h hstep
  have hrest (rest : List Event) : ({ s with events := rest } : State).Consistent :=
    consistent_congr h rfl rfl rfl rfl
  rcases step_cases hstep with ⟨-, hc⟩ | ⟨rest, -, hc⟩ | ⟨width, off, rest, -, rfl⟩ | ⟨width, off, v, rest, -, rfl⟩ |
    ⟨rest, -, rfl⟩
  · exact consistent_completeCommand h hc
  · exact consistent_completeCommand (hrest rest) hc
  · exact consistent_hostRead (hrest rest) width off
  · exact consistent_hostWrite (hrest rest) width off v
  · exact consistent_resetInput _

/-! ### The words of STATUS and VALID, and the reset values (R27, R28, R30) -/

theorem getLsbD_append_of_le {n m i : Nat} {hi : BitVec n} {lo : BitVec m} (h : m ≤ i) :
    (hi ++ lo).getLsbD i = hi.getLsbD (i - m) := by
  rw [BitVec.getLsbD_append, if_neg (by omega)]

theorem getLsbD_append_of_lt {n m i : Nat} {hi : BitVec n} {lo : BitVec m} (h : i < m) :
    (hi ++ lo).getLsbD i = lo.getLsbD i := by
  rw [BitVec.getLsbD_append, if_pos h]

theorem getLsbD_append_ofBool_zero {n : Nat} (hi : BitVec n) (b : Bool) :
    (hi ++ BitVec.ofBool b).getLsbD 0 = b := by
  rw [getLsbD_append_of_lt (by decide), BitVec.getLsbD_ofBool]
  simp

theorem busy_iff (s : State) : s.busy = true ↔ ∃ w, s.sequencer = .running w := by
  cases hq : s.sequencer with
  | idle => simp [busy_idle hq]
  | running w => simp [busy_running hq]

/-- The one-bit fields of R27: below each lie only the flags that come later in the concatenation. -/
theorem statusWord_flags (s : State) :
    s.statusWord.getLsbD 0 = s.busy ∧ s.statusWord.getLsbD 1 = s.status.done
      ∧ s.statusWord.getLsbD 2 = s.status.err ∧ s.statusWord.getLsbD 3 = s.status.sticky
      ∧ s.statusWord.getLsbD 4 = s.status.ovr := by
  unfold State.statusWord Status.toWord
  refine ⟨?_, ?_, ?_, ?_, ?_⟩
  all_goals
    repeat rw [getLsbD_append_of_le (by decide)]
    exact getLsbD_append_ofBool_zero _ _

/-- The wider fields of R27, reserved ones included: the pieces below each are dropped one by one. -/
theorem statusWord_fields (s : State) :
    s.statusWord.extractLsb' 5 3 = 0 ∧ s.statusWord.extractLsb' 8 4 = s.status.errcode.code
      ∧ s.statusWord.extractLsb' 12 4 = 0 ∧ s.statusWord.extractLsb' 16 8 = s.status.lastop
      ∧ s.statusWord.extractLsb' 24 8 = 0 := by
  unfold State.statusWord Status.toWord
  refine ⟨?_, ?_, ?_, ?_, ?_⟩ <;> repeat rw [BitVec.extractLsb'_append_eq_of_le (by decide)]
  · exact BitVec.extractLsb'_append_eq_right
  · exact BitVec.extractLsb'_append_eq_right
  · exact BitVec.extractLsb'_append_eq_right
  · exact BitVec.extractLsb'_append_eq_right
  · exact BitVec.extractLsb'_eq_self

/-- Settles O32: the fields by their place in the word, ERRCODE by R99's number for each code. -/
theorem statusWordFields : Obligations.StatusWordFields := by
  intro s
  obtain ⟨hbusy, hdone, herr, hsticky, hovr⟩ := statusWord_flags s
  obtain ⟨hlow, hcode, hmid, hlastop, hhigh⟩ := statusWord_fields s
  refine ⟨hbusy, busy_iff s, hdone, herr, hsticky, hovr, hlow, hcode.trans ?_, hmid, hlastop, hhigh⟩
  cases s.status.errcode <;> rfl

/-- The one-bit fields of R28. -/
theorem validWord_flags (s : State) :
    s.validWord.getLsbD 0 = s.valid.sv ∧ s.validWord.getLsbD 1 = s.valid.cv
      ∧ s.validWord.getLsbD 2 = s.valid.dlv ∧ s.validWord.getLsbD 3 = s.valid.drv := by
  unfold State.validWord Valid.toWord
  refine ⟨?_, ?_, ?_, ?_⟩
  all_goals
    repeat rw [getLsbD_append_of_le (by decide)]
    exact getLsbD_append_ofBool_zero _ _

/-- SALTV lies above the four one-bit fields of R28, and KEYV above SALTV. -/
theorem validWord_writtenBits (s : State) :
    (∀ k : Fin 4, s.validWord.getLsbD (4 + k.val) = s.valid.saltv.getLsbD k.val)
      ∧ ∀ w : Fin 18, s.validWord.getLsbD (8 + w.val) = s.valid.keyv.getLsbD w.val := by
  unfold State.validWord Valid.toWord
  refine ⟨fun k => ?_, fun w => ?_⟩
  all_goals
    repeat rw [getLsbD_append_of_le (by omega)]
    rw [getLsbD_append_of_lt (by omega)]
    congr 1
    omega

theorem validWord_reserved (s : State) : s.validWord.extractLsb' 26 6 = 0 := by
  unfold State.validWord Valid.toWord
  repeat rw [BitVec.extractLsb'_append_eq_of_le (by decide)]
  exact BitVec.extractLsb'_eq_self

/-- Settles O33: the fields by their place in the word. -/
theorem validWordFields : Obligations.ValidWordFields := by
  intro s
  obtain ⟨hsv, hcv, hdlv, hdrv⟩ := validWord_flags s
  obtain ⟨hsaltv, hkeyv⟩ := validWord_writtenBits s
  exact ⟨hsv, hcv, hdlv, hdrv, hsaltv, hkeyv, validWord_reserved s⟩

/-- Settles O34, by evaluating the reset state. -/
theorem resetStateIsAsSpecified : Obligations.ResetStateIsAsSpecified := by
  exact ⟨by decide, by decide, rfl, rfl, rfl, busy_idle rfl⟩

/-! ### A completing step runs the command (R29, R56) -/

theorem step_completes_ok {s : State} {w : Word} {i : Instr} (hc : s.Completes w) (hd : decode w = .ok i) :
    step s = exec i { s with events := s.events.tail } := by
  rw [step_completes hc]
  exact completeCommand_ok hc.1 hd

/-- A table word of 32 bits is the command word with that number. -/
theorem decodeTableWord_eq_some {w : Nat} {i : Instr} (hw : w < 2 ^ 32) (h : decodeTableWord 32 w = some i) :
    commandWordOfTable 32 w = some (BitVec.ofNat 32 w) ∧ decode (BitVec.ofNat 32 w) = .ok i := by
  have hword : commandWordOfTable 32 w = some (BitVec.ofNat 32 w) := by
    simp only [commandWordOfTable, Nat.mod_eq_of_lt hw, if_pos hw]
  refine ⟨hword, ?_⟩
  rw [decodeTableWord, hword] at h
  cases hd : decode (BitVec.ofNat 32 w) with
  | ok j => simpa [hd, Except.toOption] using h
  | error e => simp [hd, Except.toOption] at h

theorem completionFirst_tail (es : List Event) : (completionFirst es).tail = es := by
  cases es <;> rfl

theorem completionFirst_head (es : List Event) :
    completionFirst es = [] ∨ (completionFirst es).head? = some .complete := by
  cases es with
  | nil => exact .inl rfl
  | cons e rest => exact .inr rfl

/-- A command word placed by withFetchWord is the running word, and its completion is the next event. -/
theorem withFetchWord_completes {s : State} {nbits w : Nat} {v : Word} (h : commandWordOfTable nbits w = some v) :
    (s.withFetchWord nbits w).Completes v := by
  rw [State.withFetchWord, State.placeCommand, h]
  exact ⟨rfl, completionFirst_head s.events⟩

/-- Less that completion, it is the state that accepted the word. -/
theorem withFetchWord_less_completion {s : State} {nbits w : Nat} {v : Word}
    (h : commandWordOfTable nbits w = some v) :
    { s.withFetchWord nbits w with events := (s.withFetchWord nbits w).events.tail } = s.acceptCommand v := by
  rw [State.withFetchWord, State.placeCommand, h]
  simp only [completionFirst_tail]
  rfl

/-- Settles O43: both parts are a step whose event is the completion of a word that decodes. -/
theorem stepRunsTheRunningCommand : Obligations.StepRunsTheRunningCommand := by
  refine ⟨fun s w i hc hd => step_completes_ok hc hd, fun s w i hw h => ?_⟩
  obtain ⟨hword, hd⟩ := decodeTableWord_eq_some hw h
  rw [step_completes_ok (withFetchWord_completes hword) hd, withFetchWord_less_completion hword]

end Sys2Proof.Proofs
end

section
/-! The register window (20_memory.md): the map and the offsets, what a refused access, a legal read and a performed write
answer, and the statements on them. -/

namespace Sys2Proof.Proofs

open Sys2Proof.Machine Sys2Proof.Laws

/-! ### The map and the offsets (R31) -/

theorem regAt_regOffset (r : Reg) : regAt (regOffset r) = some r :=
  (regAt_eq_some_iff _ r).2 ⟨le_rfl, by omega⟩

theorem accessLegal_regOffset (r : Reg) : accessLegal 32 (regOffset r) = true :=
  (accessLegal_iff _ _).2 ⟨rfl, regOffset_mod_four r⟩

theorem eq_regOffset_of_toNat {off : Offset} {r : Reg} {n : Nat} (h : off.toNat = n) (hr : (regOffset r).toNat = n) :
    off = regOffset r :=
  BitVec.eq_of_toNat_eq (h.trans hr.symm)

theorem eq_regOffset_of_regAt {off : Offset} {r : Reg} (ha : off.toNat % 4 = 0) (hr : regAt off = some r) :
    off = regOffset r := by
  have hrange := regAt_cases hr
  have haligned := regOffset_mod_four r
  exact BitVec.eq_of_toNat_eq (by omega)

/-- Settles O26: the three parts are the map read from either side, and its gaps. -/
theorem windowMapMatchesOffsets : Obligations.WindowMapMatchesOffsets := by
  refine ⟨fun r => ⟨regOffset_mod_four r, regAt_regOffset r⟩, fun off r => eq_regOffset_of_regAt, fun off ha => ?_⟩
  rw [regAt_eq_none_iff]
  omega

/-! ### Refused accesses (R34, R35, R117) -/

theorem readableOffset_of_legal {width : Nat} {off : Offset} {r : Reg} (hl : accessLegal width off = true)
    (hr : regAt off = some r) (hne : r ≠ .cmd) : width = 32 ∧ ReadableOffset off := by
  obtain ⟨hwidth, ha⟩ := (accessLegal_iff width off).1 hl
  exact ⟨hwidth, (readableOffset_iff off).2 ⟨ha, r, hr, hne⟩⟩

theorem writableOffset_of_legal {width : Nat} {off : Offset} {r : Reg} (hl : accessLegal width off = true)
    (hr : regAt off = some r) (hw : regWritable r = true) : width = 32 ∧ WritableOffset off := by
  obtain ⟨hwidth, ha⟩ := (accessLegal_iff width off).1 hl
  exact ⟨hwidth, (writableOffset_iff off).2 ⟨ha, r, hr, hw⟩⟩

/-- A value or a free draw is answered only at a readable offset; CMD is refused. -/
theorem hostRead_of_refused {width : Nat} {off : Offset} (h : width ≠ 32 ∨ ¬ ReadableOffset off) (s : State) :
    s.hostRead width off = s.busError := by
  rcases hostRead_cases width off s with hs | ⟨r, v, hl, hr, hv, -⟩ | ⟨r, hl, hr, hv, -⟩
  · exact hs
  · exact absurd (readableOffset_of_legal hl hr (by rintro rfl; cases hv)) (not_and_or.2 h)
  · exact absurd (readableOffset_of_legal hl hr (by rintro rfl; cases hv)) (not_and_or.2 h)

/-- A write is performed or rejected only at a writable offset. -/
theorem hostWrite_of_refused {width : Nat} {off : Offset} (h : width ≠ 32 ∨ ¬ WritableOffset off) (v : Word)
    (s : State) : s.hostWrite width off v = s.busError := by
  rcases hostWrite_cases width off v s with hs | ⟨r, hl, hr, hw, -⟩ | ⟨r, hl, hr, hw, -⟩
  · exact hs
  · exact absurd (writableOffset_of_legal hl hr hw) (not_and_or.2 h)
  · exact absurd (writableOffset_of_legal hl hr hw) (not_and_or.2 h)

theorem step_read {s : State} {width : Nat} {off : Offset} {rest : List Event}
    (he : s.events = .read width off :: rest) : step s = .next (State.hostRead width off { s with events := rest }) :=
  step_cons he

theorem step_write {s : State} {width : Nat} {off : Offset} {v : Word} {rest : List Event}
    (he : s.events = .write width off v :: rest) :
    step s = .next (State.hostWrite width off v { s with events := rest }) :=
  step_cons he

/-- Settles O27, by what refuses a read and what refuses a write. -/
theorem refusedAccessChangesNothing : Obligations.RefusedAccessChangesNothing := by
  intro s width off rest
  refine ⟨fun h he => ?_, fun v h he => ?_⟩
  · rw [step_read he, hostRead_of_refused h]
    rfl
  · rw [step_write he, hostWrite_of_refused h]
    rfl

/-! ### Legal reads (R37, R39, R40) -/

@[simp] theorem whenDefined_true (v : Word) : ReadResult.whenDefined true v = .value v := rfl

@[simp] theorem whenDefined_false (v : Word) : ReadResult.whenDefined false v = .anyValue := rfl

theorem readReg_events (s : State) (es : List Event) (r : Reg) :
    State.readReg { s with events := es } r = s.readReg r := by
  cases r <;> rfl

theorem readReg_respond (a : Response) (s : State) (r : Reg) : (s.respond a).readReg r = s.readReg r := by
  cases r <;> rfl

/-- A legal read of a register answers what the read finds there. -/
theorem step_read_regOffset {s : State} {off : Offset} {rest : List Event} (he : s.events = .read 32 off :: rest)
    (r : Reg) (hoff : off = regOffset r) :
    step s = .next (State.answerRead { s with events := rest } (s.readReg r)) := by
  rw [step_read he, hoff, State.hostRead, if_pos (accessLegal_regOffset r), regAt_regOffset]
  simp only [readReg_events]

theorem step_read_of_value {s : State} {off : Offset} {rest : List Event} (he : s.events = .read 32 off :: rest)
    (r : Reg) (hoff : off = regOffset r) {v : Word} (hv : s.readReg r = .value v) :
    step s = .next { s with events := rest, response := some (.data v) } := by
  rw [step_read_regOffset he r hoff, hv]
  rfl

theorem step_read_of_anyValue {s : State} {off : Offset} {rest : List Event} (he : s.events = .read 32 off :: rest)
    (r : Reg) (hoff : off = regOffset r) (hv : s.readReg r = .anyValue) :
    step s = .next
      { s with events := rest, response := some (.data (Config.freeWord s.draws)), draws := s.draws + 1 } := by
  rw [step_read_regOffset he r hoff, hv]
  rfl

/-- A register with a valid bit answers its value where the bit is 1 and a free draw where it is 0 (R39). -/
theorem step_read_of_whenDefined {s : State} {off : Offset} {rest : List Event} (he : s.events = .read 32 off :: rest)
    (r : Reg) (hoff : off = regOffset r) {b : Bool} {v : Word} (hv : s.readReg r = .whenDefined b v) :
    if b then step s = .next { s with events := rest, response := some (.data v) }
    else step s = .next
      { s with events := rest, response := some (.data (Config.freeWord s.draws)), draws := s.draws + 1 } := by
  cases b with
  | true => exact step_read_of_value he r hoff hv
  | false => exact step_read_of_anyValue he r hoff hv

/-- SW[256 k + i] shows S[k][i] (R15). -/
theorem readReg_sw (s : State) (k : Fin 4) (i : Fin 256) (h : 256 * k.val + i.val < 1024) :
    s.readReg (.sw ⟨256 * k.val + i.val, h⟩) = .whenDefined (!s.busy && s.valid.sv) s.cipher.sbox[k][i] := by
  have hbox : (256 * k.val + i.val) / 256 = k.val := by omega
  have hword : (256 * k.val + i.val) % 256 = i.val := by omega
  simp only [State.readReg, hbox, hword, Fin.getElem_fin]

/-- Settles O30, register by register: what a read finds while idle, at the register's offset. -/
theorem idleReadAnswersValueOrFreeDraw : Obligations.IdleReadAnswersValueOrFreeDraw := by
  intro s off rest hq he
  have hb : s.busy = false := busy_idle hq
  refine ⟨fun h => step_read_of_value he .status h rfl, fun h => step_read_of_value he .valid h rfl,
    fun h => step_read_of_value he .cost h rfl, fun h => step_read_of_value he .keylen h rfl,
    fun h => step_read_of_whenDefined he .dl h ?dl, fun h => step_read_of_whenDefined he .dr h ?dr,
    fun k h => step_read_of_whenDefined he (.saltw k) (eq_regOffset_of_toNat h (regOffset_val _)) rfl,
    fun w h => step_read_of_whenDefined he (.keyw w) (eq_regOffset_of_toNat h (regOffset_val _)) rfl,
    fun j h => step_read_of_whenDefined he (.cdata j) (eq_regOffset_of_toNat h (regOffset_val _)) ?cdata,
    fun i h => step_read_of_whenDefined he (.pw i) (eq_regOffset_of_toNat h (regOffset_val _)) ?pw,
    fun k i h => step_read_of_whenDefined he (.sw ⟨256 * k.val + i.val, by omega⟩)
      (eq_regOffset_of_toNat h (regOffset_val _)) ?sw⟩
  case sw => simp [readReg_sw, hb]
  all_goals simp [State.readReg, hb]

/-- The readable registers that a busy block does not show (R40). -/
def hiddenWhileBusy : Reg → Bool
  | .dl | .dr | .cdata _ | .pw _ | .sw _ => true
  | _ => false

theorem readReg_of_hiddenWhileBusy {s : State} {r : Reg} (hb : s.busy = true) (hr : hiddenWhileBusy r = true) :
    s.readReg r = .anyValue := by
  cases r with
  | dl | dr | cdata | pw | sw => simp [State.readReg, hb]
  | cmd | status | valid | cost | keylen | saltw | keyw => cases hr

/-- The offsets of DL, DR, CDATA, PW and SW, as R31 numbers them. -/
theorem exists_hiddenWhileBusy {off : Offset} (ha : off.toNat % 4 = 0)
    (h : off = 0x014 ∨ off = 0x018 ∨ (0x0A0 ≤ off.toNat ∧ off.toNat ≤ 0x0B4)
      ∨ (0x100 ≤ off.toNat ∧ off.toNat ≤ 0x144) ∨ 0x1000 ≤ off.toNat) :
    ∃ r, off = regOffset r ∧ hiddenWhileBusy r = true := by
  rcases h with h | h | h | h | h
  · exact ⟨.dl, h, rfl⟩
  · exact ⟨.dr, h, rfl⟩
  · exact ⟨.cdata ⟨(off.toNat - 0x0A0) / 4, by omega⟩,
      eq_regOffset_of_toNat (by dsimp only; omega) (regOffset_val _), rfl⟩
  · exact ⟨.pw ⟨(off.toNat - 0x100) / 4, by omega⟩,
      eq_regOffset_of_toNat (by dsimp only; omega) (regOffset_val _), rfl⟩
  · exact ⟨.sw ⟨(off.toNat - 0x1000) / 4, by omega⟩,
      eq_regOffset_of_toNat (by dsimp only; omega) (regOffset_val _), rfl⟩

/-- Settles O31: the stable registers one by one, the hidden ones together. -/
theorem busyReadAnswersValueOrFreeDraw : Obligations.BusyReadAnswersValueOrFreeDraw := by
  intro s off rest hb he
  refine ⟨fun h => step_read_of_value he .status h rfl, fun h => step_read_of_value he .valid h rfl,
    fun h => step_read_of_value he .cost h rfl, fun h => step_read_of_value he .keylen h rfl,
    fun k h => step_read_of_whenDefined he (.saltw k) (eq_regOffset_of_toNat h (regOffset_val _)) rfl,
    fun w h => step_read_of_whenDefined he (.keyw w) (eq_regOffset_of_toNat h (regOffset_val _)) rfl,
    fun ha h => ?_⟩
  obtain ⟨r, hoff, hr⟩ := exists_hiddenWhileBusy ha h
  exact step_read_of_anyValue he r hoff (readReg_of_hiddenWhileBusy hb hr)

/-! ### Performed writes (R38) -/

/-- The valid bits set in v or in w. -/
def orValid (v w : Valid) : Valid :=
  ⟨v.sv || w.sv, v.cv || w.cv, v.dlv || w.dlv, v.drv || w.drv, v.saltv ||| w.saltv, v.keyv ||| w.keyv⟩

/-- VALID with only the bit that a write of the register sets (R28). -/
def regValidBit : Reg → Valid
  | .dl => ⟨false, false, true, false, 0, 0⟩
  | .dr => ⟨false, false, false, true, 0, 0⟩
  | .saltw k => ⟨false, false, false, false, BitVec.twoPow 4 k.val, 0⟩
  | .keyw w => ⟨false, false, false, false, 0, BitVec.twoPow 18 w.val⟩
  | _ => ⟨false, false, false, false, 0, 0⟩

/-- Bit i of either side lies in the same piece of R28's word. -/
theorem toWord_orValid (v w : Valid) : (orValid v w).toWord = v.toWord ||| w.toWord := by
  apply BitVec.eq_of_getLsbD_eq
  intro i _
  simp only [orValid, Valid.toWord, ← BitVec.ofBool_or_ofBool, BitVec.getLsbD_or, BitVec.getLsbD_append]
  split_ifs <;> simp only [BitVec.getLsbD_zero, Bool.or_self]

/-- The store of a register sets its valid bit and no other. -/
theorem storeReg_valid (r : Reg) (v : Word) (s : State) :
    (s.storeReg r v).valid = orValid s.valid (regValidBit r) := by
  cases r <;> simp [State.storeReg, orValid, regValidBit, Valid.markSalt, Valid.markKey]

theorem regValidBit_saltv (r : Reg) (k : Fin 4) : (regValidBit r).saltv.getLsbD k.val = decide (r = .saltw k) := by
  cases r with
  | saltw j =>
    simp only [regValidBit, BitVec.getLsbD_twoPow, Reg.saltw.injEq, Fin.ext_iff, j.isLt, decide_true, Bool.true_and]
  | _ => simp [regValidBit]

theorem regValidBit_keyv (r : Reg) (w : Fin 18) : (regValidBit r).keyv.getLsbD w.val = decide (r = .keyw w) := by
  cases r with
  | keyw j =>
    simp only [regValidBit, BitVec.getLsbD_twoPow, Reg.keyw.injEq, Fin.ext_iff, j.isLt, decide_true, Bool.true_and]
  | _ => simp [regValidBit]

theorem storeReg_dlv (r : Reg) (v : Word) (s : State) :
    (s.storeReg r v).valid.dlv = (s.valid.dlv || decide (r = .dl)) := by
  rw [storeReg_valid]
  cases r <;> rfl

theorem storeReg_drv (r : Reg) (v : Word) (s : State) :
    (s.storeReg r v).valid.drv = (s.valid.drv || decide (r = .dr)) := by
  rw [storeReg_valid]
  cases r <;> rfl

theorem storeReg_saltValid (r : Reg) (v : Word) (s : State) (k : Fin 4) :
    (s.storeReg r v).valid.saltValid k.val = (s.valid.saltValid k.val || decide (r = .saltw k)) := by
  rw [storeReg_valid, Valid.saltValid, orValid, BitVec.getLsbD_or, regValidBit_saltv, Valid.saltValid]

theorem storeReg_keyValid (r : Reg) (v : Word) (s : State) (w : Fin 18) :
    (s.storeReg r v).valid.keyValid w.val = (s.valid.keyValid w.val || decide (r = .keyw w)) := by
  rw [storeReg_valid, Valid.keyValid, orValid, BitVec.getLsbD_or, regValidBit_keyv, Valid.keyValid]

/-- The bit of SALTW[k] in the VALID word is bit 4 + k (R28). -/
theorem toWord_regValidBit_saltw (k : Fin 4) :
    (regValidBit (.saltw k)).toWord = BitVec.twoPow 32 (4 + k.val) := by
  revert k
  decide

/-- The bit of KEYW[w] in the VALID word is bit 8 + w (R28). -/
theorem toWord_regValidBit_keyw (w : Fin 18) :
    (regValidBit (.keyw w)).toWord = BitVec.twoPow 32 (8 + w.val) := by
  revert w
  decide

theorem validWord_storeReg (r : Reg) (v : Word) (s : State) :
    (s.storeReg r v).validWord = s.validWord ||| (regValidBit r).toWord := by
  rw [State.validWord, storeReg_valid, toWord_orValid, State.validWord]

theorem storeReg_busy {r : Reg} (hr : r ≠ .cmd) (v : Word) (s : State) : (s.storeReg r v).busy = s.busy := by
  rw [State.busy, storeReg_sequencer hr, State.busy]

@[simp] theorem storeReg_draws (r : Reg) (v : Word) (s : State) : (s.storeReg r v).draws = s.draws := by
  cases r <;> rfl

/-- A register the host may write reads as the word just stored, while idle. -/
theorem readReg_storeReg_same {s : State} {r : Reg} (hq : s.sequencer = .idle) (hw : regWritable r = true)
    (hr : r ≠ .cmd) (v : Word) : (s.storeReg r v).readReg r = .value v := by
  have hb : (s.storeReg r v).busy = false := by rw [storeReg_busy hr, busy_idle hq]
  cases r with
  | cmd => exact absurd rfl hr
  | status | valid | cdata | pw | sw => cases hw
  | cost | keylen => rfl
  | dl | dr =>
    simp only [State.readReg, hb]
    rfl
  | saltw k =>
    have hword : (s.storeReg (.saltw k) v).saltw[k] = v := Vector.getElem_set_self k.isLt
    simp [State.readReg, storeReg_saltValid, hword]
  | keyw w =>
    have hword : (s.storeReg (.keyw w) v).keyw[w] = v := Vector.getElem_set_self w.isLt
    simp [State.readReg, storeReg_keyValid, hword]

/-- The store of a register other than CMD is seen at no other register but VALID: neither the word nor its valid bit
changes there. -/
theorem readReg_storeReg_ne {s : State} {r r' : Reg} (hr : r ≠ .cmd) (hne : r' ≠ r) (hvalid : r' ≠ .valid) (v : Word) :
    (s.storeReg r v).readReg r' = s.readReg r' := by
  cases r' with
  | cmd => rfl
  | valid => exact absurd rfl hvalid
  | status => simp only [State.readReg, State.statusWord, storeReg_status hr, storeReg_busy hr]
  | cost => exact congrArg ReadResult.value (by_contra fun h => hne (eq_cost_of_storeReg h).symm)
  | keylen => exact congrArg ReadResult.value (by_contra fun h => hne (eq_keylen_of_storeReg h).symm)
  | dl =>
    have hword : (s.storeReg r v).dl = s.dl := by_contra fun h => hne (eq_dl_of_storeReg h).symm
    simp only [State.readReg, storeReg_busy hr, hword, storeReg_dlv, hne.symm, decide_false, Bool.or_false]
  | dr =>
    have hword : (s.storeReg r v).dr = s.dr := by_contra fun h => hne (eq_dr_of_storeReg h).symm
    simp only [State.readReg, storeReg_busy hr, hword, storeReg_drv, hne.symm, decide_false, Bool.or_false]
  | saltw k =>
    have hword : (s.storeReg r v).saltw[k] = s.saltw[k] := by_contra fun h => hne (eq_saltw_of_storeReg h).symm
    simp only [State.readReg, hword, storeReg_saltValid, hne.symm, decide_false, Bool.or_false]
  | keyw w =>
    have hword : (s.storeReg r v).keyw[w] = s.keyw[w] := by_contra fun h => hne (eq_keyw_of_storeReg h).symm
    simp only [State.readReg, hword, storeReg_keyValid, hne.symm, decide_false, Bool.or_false]
  | cdata j => simp only [State.readReg, storeReg_busy hr, storeReg_cv, storeReg_cdata]
  | pw i | sw m => simp only [State.readReg, storeReg_busy hr, storeReg_sv, storeReg_cipher]

theorem writableOffset_regOffset {r : Reg} (h : WritableOffset (regOffset r)) : regWritable r = true := by
  obtain ⟨-, r', hr', hw⟩ := (writableOffset_iff _).1 h
  rw [regAt_regOffset] at hr'
  cases hr'
  exact hw

/-- A write to an idle block at a writable register is performed. -/
theorem hostWrite_idle {s : State} {r : Reg} (hq : s.sequencer = .idle) (hw : regWritable r = true) (v : Word) :
    s.hostWrite 32 (regOffset r) v = (s.storeReg r v).respond .written := by
  rw [State.hostWrite, if_pos (accessLegal_regOffset r), regAt_regOffset]
  simp [hw, busy_idle hq]

/-- Settles O29: the step is the store of the register, and the two rules of the store say what each register reads. -/
theorem idleWriteIsReadBack : Obligations.IdleWriteIsReadBack := by
  intro s r v rest hq hoff hr he
  have hw := writableOffset_regOffset hoff
  refine ⟨State.respond .written { s.storeReg r v with events := rest }, ?_, ?_, fun r' hne hvalid => ?_, ?_,
    (storeReg_sequencer hr v s).trans hq, rfl, storeReg_draws r v s, storeReg_status hr v s⟩
  · rw [step_write he, hostWrite_idle (s := { s with events := rest }) hq hw, storeReg_events]
  · rw [readReg_respond, readReg_events]
    exact readReg_storeReg_same hq hw hr v
  · rw [readReg_respond, readReg_events]
    exact readReg_storeReg_ne hr hne hvalid v
  · refine (validWord_storeReg r v s).trans (congrArg _ ?_)
    cases r with
    | saltw k => exact toWord_regValidBit_saltw k
    | keyw w => exact toWord_regValidBit_keyw w
    | cmd => exact absurd rfl hr
    | status | valid | cdata | pw | sw => cases hw
    | cost | keylen | dl | dr => decide

end Sys2Proof.Proofs
end

section
/-! Command words (30_encoding.md): a word is its two fields, what the decoder accepts and refuses, and what becomes of a
word written to CMD. -/

namespace Sys2Proof.Proofs

open Sys2Proof.Machine Sys2Proof.Laws

/-! ### The fields of a word (R46) -/

theorem rsvdField_append_opField (w : Word) : rsvdField w ++ opField w = w :=
  (BitVec.extractLsb'_append_extractLsb'_eq_extractLsb' rfl).trans BitVec.extractLsb'_eq_self

theorem encode_fields (i : Instr) : rsvdField (encode i) = 0 ∧ opField (encode i) = i.opcode := by
  cases i with
  | init => exact EncodedForm.init.2
  | encrypt => exact EncodedForm.encrypt.2
  | expand0Key => exact EncodedForm.expand0Key.2
  | expand0Salt => exact EncodedForm.expand0Salt.2
  | expandKeySalt => exact EncodedForm.expandKeySalt.2
  | eksLoop => exact EncodedForm.eksLoop.2
  | digest => exact EncodedForm.digest.2
  | bcrypt => exact EncodedForm.bcrypt.2

theorem eq_encode_iff (w : Word) (i : Instr) : w = encode i ↔ rsvdField w = 0 ∧ opField w = i.opcode := by
  constructor
  · rintro rfl
    exact encode_fields i
  · rintro ⟨hrsvd, hop⟩
    rw [← rsvdField_append_opField w, hrsvd, hop]
    rfl

/-! ### What the decoder accepts and refuses (R49, R50, R56) -/

theorem decodeOp_eq_ok_iff (op : BitVec 8) (i : Instr) : decodeOp op = .ok i ↔ op = i.opcode := by
  constructor
  · intro h
    unfold decodeOp at h
    split at h <;> cases h <;> rfl
  · rintro rfl
    cases i <;> rfl

/-- R56: the decoder's two tests are the two fields of the command's own word. -/
theorem decode_eq_ok_iff (w : Word) (i : Instr) : decode w = .ok i ↔ w = encode i := by
  rw [eq_encode_iff, ← decodeOp_eq_ok_iff, decode]
  split
  · next hrsvd => exact iff_of_false nofun fun h => hrsvd h.1
  · next hrsvd => exact (and_iff_right (not_not.1 hrsvd)).symm

theorem decode_encode (i : Instr) : decode (encode i) = .ok i :=
  (decode_eq_ok_iff (encode i) i).2 rfl

/-- Settles O1: a word decodes to a command exactly when it is the command's own word. -/
theorem decodeAcceptsExactlyEncodings : Obligations.DecodeAcceptsExactlyEncodings :=
  fun i _ => ⟨decode_encode i, fun w => (decode_eq_ok_iff w i).1⟩

/-- Settles O2: the first eight words are the encodings of the eight commands; the decoder runs on the other three. -/
theorem opcodeMapWordsDecode : Obligations.OpcodeMapWordsDecode :=
  ⟨decode_encode .init, decode_encode .encrypt, decode_encode .expand0Key, decode_encode .expand0Salt,
    decode_encode .expandKeySalt, decode_encode .eksLoop, decode_encode .digest, decode_encode .bcrypt,
    rfl, rfl, rfl⟩

/-- The column OP of R49 is the range 0x01 to 0x08, without a gap. -/
theorem exists_opcode_iff (op : BitVec 8) : (∃ i : Instr, op = i.opcode) ↔ 1 ≤ op.toNat ∧ op.toNat ≤ 8 := by
  constructor
  · rintro ⟨i, rfl⟩
    cases i <;> decide
  · rintro ⟨hlow, hhigh⟩
    interval_cases h : op.toNat
    · exact ⟨.init, BitVec.eq_of_toNat_eq h⟩
    · exact ⟨.encrypt, BitVec.eq_of_toNat_eq h⟩
    · exact ⟨.expand0Key, BitVec.eq_of_toNat_eq h⟩
    · exact ⟨.expand0Salt, BitVec.eq_of_toNat_eq h⟩
    · exact ⟨.expandKeySalt, BitVec.eq_of_toNat_eq h⟩
    · exact ⟨.eksLoop, BitVec.eq_of_toNat_eq h⟩
    · exact ⟨.digest, BitVec.eq_of_toNat_eq h⟩
    · exact ⟨.bcrypt, BitVec.eq_of_toNat_eq h⟩

theorem not_illegalWord_iff_fields (w : Word) :
    ¬ IllegalWord w ↔ rsvdField w = 0 ∧ 1 ≤ (opField w).toNat ∧ (opField w).toNat ≤ 8 := by
  have hzero : (opField w).toNat = 0 ↔ opField w = 0 := BitVec.toNat_inj (y := 0#8)
  change ¬ (rsvdField w ≠ 0 ∨ opField w = 0 ∨ 9 ≤ (opField w).toNat) ↔ _
  rw [← hzero, not_or, not_not]
  exact and_congr_right fun _ => by omega

/-- The words that are not R100's are the words that decode. -/
theorem not_illegalWord_iff (w : Word) : ¬ IllegalWord w ↔ ∃ i, decode w = .ok i := by
  simp only [not_illegalWord_iff_fields, decode_eq_ok_iff, eq_encode_iff, exists_and_left, exists_opcode_iff]

theorem illegalWord_iff (w : Word) : IllegalWord w ↔ ∃ e, decode w = .error e := by
  rw [← not_iff_not, not_illegalWord_iff]
  cases decode w <;> simp

/-! ### What becomes of a word written to CMD (R48, R100, R111) -/

/-- R111: a word written to CMD of an idle block is accepted, whatever it holds. -/
theorem step_write_cmd {s : State} {w : Word} {rest : List Event} (hq : s.sequencer = .idle)
    (he : s.events = .write 32 0x000 w :: rest) :
    step s = .next (State.respond .written (State.acceptCommand w { s with events := rest })) := by
  rw [step_write he]
  exact congrArg _ (hostWrite_idle (s := { s with events := rest }) (r := .cmd) hq rfl w)

theorem step_completes_error {s : State} {w : Word} {e : DecodeError} (hc : s.Completes w) (hd : decode w = .error e) :
    step s = .next (State.raiseError .illegal { s with events := s.events.tail }) := by
  rw [step_completes hc]
  exact completeCommand_error hc.1 hd

theorem exec_lastop {i : Instr} {s t : State} (h : exec i s = .next t) : t.status.lastop = s.status.lastop := by
  rcases exec_cases h with ⟨c, -, -, rfl⟩ | ⟨-, hst, -⟩
  · rfl
  · rw [hst]

/-- ILLEGAL is raised before any command runs, never by one (R105). -/
theorem exec_errcode_ne_illegal {i : Instr} {s t : State} (hs : s.status.errcode ≠ .illegal) (h : exec i s = .next t) :
    t.status.errcode ≠ .illegal := by
  rcases exec_cases h with ⟨c, -, hc, rfl⟩ | ⟨-, hst, -⟩
  · exact hc
  · rw [hst]; exact hs

/-- Settles O3: the write accepts the word, and the completion runs the command it decodes to or raises ILLEGAL. -/
theorem illegalWordReportsIllegal : Obligations.IllegalWordReportsIllegal := by
  intro s w rest hq he
  have hwrite := step_write_cmd hq he
  have hc : (State.respond .written (State.acceptCommand w { s with events := .complete :: rest })).Completes w :=
    ⟨rfl, .inr rfl⟩
  cases hd : decode w with
  | ok i =>
    obtain ⟨t, ht⟩ := exec_next i (State.respond .written (State.acceptCommand w { s with events := rest }))
    have hlegal := (not_illegalWord_iff w).2 ⟨i, hd⟩
    have herr := exec_errcode_ne_illegal (by simp) ht
    refine ⟨_, t, hwrite, (step_completes_ok hc hd).trans ht, exec_lastop ht, ?_, fun hill => absurd hill hlegal⟩
    exact iff_of_false herr hlegal
  | error e =>
    have hill := (illegalWord_iff w).2 ⟨e, hd⟩
    refine ⟨_, _, hwrite, step_completes_error hc hd, rfl, iff_of_true rfl hill, fun _ => ?_⟩
    cases s
    cases hq
    rfl

end Sys2Proof.Proofs
end

section
/-! The Blowfish core (40_blowfish_core.md): the round function by bytes, EncryptBlock as a recurrence and as a bijection,
and what INIT and ENCRYPT leave. -/

namespace Sys2Proof.Proofs

open Sys2Proof.Machine Sys2Proof.Laws

/-! ### The rounds of EncryptBlock (R58) -/

/-- The running block of EncryptBlock before round n. -/
def roundTrace (c : Cipher) (b : Block) (n : Nat) : Block :=
  (c.p.toList.take n).foldl c.feistelRound b

@[simp] theorem roundTrace_zero (c : Cipher) (b : Block) : roundTrace c b 0 = b := rfl

theorem roundTrace_succ (c : Cipher) (b : Block) (i : Fin 16) :
    roundTrace c b (i.val + 1) = c.feistelRound (roundTrace c b i.val) c.p[i.val] := by
  have hi : i.val < c.p.toList.length := by rw [Vector.length_toList]; omega
  unfold roundTrace
  rw [List.take_succ_eq_append_getElem hi, List.foldl_concat, Vector.getElem_toList]

/-- The end of EncryptBlock: the last swap undone, P[16] into the right half and P[17] into the left. -/
def whiten (c : Cipher) (b : Block) : Block := ⟨b.right ^^^ c.p[17], b.left ^^^ c.p[16]⟩

theorem encryptBlock_eq_whiten (c : Cipher) (b : Block) : c.encryptBlock b = whiten c (roundTrace c b 16) := rfl

/-- The worked value of R58. -/
theorem encryptBlock_canonical_zero : canonicalCipher.encryptBlock ⟨0, 0⟩ = ⟨0x706D9FCC, 0x1792D23A⟩ := by
  decide +kernel

/-- Settles O5: L and R are the halves of the running block. -/
theorem encryptBlockFollowsRounds : Obligations.EncryptBlockFollowsRounds := by
  refine ⟨fun c b => ⟨fun n => (roundTrace c b n).left, fun n => (roundTrace c b n).right, rfl, rfl, fun i => ?_,
    encryptBlock_eq_whiten c b⟩, encryptBlock_canonical_zero⟩
  simp only [roundTrace_succ, Cipher.feistelRound, and_self]

/-! ### EncryptBlock is a bijection (R59) -/

/-- One round backwards: the right half still holds what F was applied to. -/
def feistelRoundInverse (c : Cipher) (b : Block) (k : Word) : Block :=
  ⟨b.right ^^^ k, b.left ^^^ c.roundF b.right⟩

theorem feistelRoundInverse_feistelRound (c : Cipher) (k : Word) (b : Block) :
    feistelRoundInverse c (c.feistelRound b k) k = b := by
  simp only [feistelRoundInverse, Cipher.feistelRound, BitVec.xor_assoc, BitVec.xor_self, BitVec.xor_zero]

theorem feistelRound_feistelRoundInverse (c : Cipher) (k : Word) (b : Block) :
    c.feistelRound (feistelRoundInverse c b k) k = b := by
  simp only [feistelRoundInverse, Cipher.feistelRound, BitVec.xor_assoc, BitVec.xor_self, BitVec.xor_zero]

theorem feistelRound_bijective (c : Cipher) (k : Word) : Function.Bijective fun b => c.feistelRound b k :=
  Function.bijective_iff_has_inverse.2
    ⟨fun b => feistelRoundInverse c b k, feistelRoundInverse_feistelRound c k, feistelRound_feistelRoundInverse c k⟩

/-- Rounds with any list of subkeys are a bijection, because each round is. -/
theorem foldl_feistelRound_bijective (c : Cipher) (ks : List Word) :
    Function.Bijective fun b => ks.foldl c.feistelRound b := by
  induction ks with
  | nil => exact Function.bijective_id
  | cons k ks ih => exact ih.comp (feistelRound_bijective c k)

theorem whiten_bijective (c : Cipher) : Function.Bijective (whiten c) := by
  refine Function.bijective_iff_has_inverse.2
    ⟨fun b => ⟨b.right ^^^ c.p[16], b.left ^^^ c.p[17]⟩, fun b => ?_, fun b => ?_⟩
  all_goals simp only [whiten, BitVec.xor_assoc, BitVec.xor_self, BitVec.xor_zero]

/-- Settles O6: sixteen rounds and the whitening, each a bijection. -/
theorem encryptBlockIsBijective : Obligations.EncryptBlockIsBijective := by
  intro c
  have hcomp : c.encryptBlock = whiten c ∘ fun b => roundTrace c b 16 := funext (encryptBlock_eq_whiten c)
  rw [hcomp]
  exact (whiten_bijective c).comp (foldl_feistelRound_bijective c (c.p.toList.take 16))

/-! ### The round function by bytes (R57) -/

/-- Byte t of a word written as four bytes, the most significant first. -/
theorem bigEndianByte_append (a b c d : Byte) :
    bigEndianByte (a ++ b ++ c ++ d) 0 = a ∧ bigEndianByte (a ++ b ++ c ++ d) 1 = b
      ∧ bigEndianByte (a ++ b ++ c ++ d) 2 = c ∧ bigEndianByte (a ++ b ++ c ++ d) 3 = d := by
  unfold bigEndianByte
  refine ⟨?_, ?_, ?_, ?_⟩ <;> repeat rw [BitVec.extractLsb'_append_eq_of_le (by decide)]
  · exact BitVec.extractLsb'_eq_self
  · exact BitVec.extractLsb'_append_eq_right
  · exact BitVec.extractLsb'_append_eq_right
  · exact BitVec.extractLsb'_append_eq_right

theorem roundF_append (x : Cipher) (a b c d : Byte) :
    x.roundF (a ++ b ++ c ++ d) =
      ((x.sbox[0][a.toNat] + x.sbox[1][b.toNat]) ^^^ x.sbox[2][c.toNat]) + x.sbox[3][d.toNat] := by
  obtain ⟨ha, hb, hc, hd⟩ := bigEndianByte_append a b c d
  rw [Cipher.roundF, ha, hb, hc, hd]
  rfl

/-- Settles O4: the formula for every cipher state; the model computes the two worked values. -/
theorem roundFunctionFormula : Obligations.RoundFunctionFormula :=
  ⟨roundF_append, by decide +kernel, by decide +kernel⟩

/-! ### INIT and ENCRYPT (R60, R61) -/

/-- Settles O13: INIT checks nothing, and the canonical state is the two tables. -/
theorem initLoadsCanonicalState : Obligations.InitLoadsCanonicalState := by
  intro s
  rw [execInit_eq, State.finish, canonicalCipher]

/-- Settles O14: with both checks passed the effect is EncryptBlock on the two halves. -/
theorem encryptWritesBothHalves : Obligations.EncryptWritesBothHalves := by
  intro s hblock hseeded
  have hcheck : s.blockError.or s.seedError = none :=
    Option.or_eq_none_iff.2 ⟨(blockError_eq_none s).2 hblock, (seedError_eq_none s).2 hseeded⟩
  rw [exec, execEncrypt, hcheck, runChecked_none, State.finish]

end Sys2Proof.Proofs
end

section
/-! The key schedule (41_key_schedule.md): what one slot stores, a pass as a chain of slots, the key streams byte by byte,
and the three commands that run one pass. -/

namespace Sys2Proof.Proofs

open Sys2Proof.Machine Sys2Proof.Laws

/-! ### What one slot stores (R64) -/

/-- The half of a block that goes to entry j: the left half at an even index. -/
def halfAt (j : Nat) (b : Block) : Word := if j % 2 = 0 then b.left else b.right

/-- A pair of neighbouring entries, the even one first, written with the two halves of a block. -/
theorem getElem_set_pair {n m : Nat} (v : Vector Word n) (h0 : 2 * m < n) (h1 : 2 * m + 1 < n) (b : Block) (i : Nat)
    (hi : i < n) :
    ((v.set (2 * m) b.left h0).set (2 * m + 1) b.right h1)[i] = if m = i / 2 then halfAt i b else v[i] := by
  by_cases hleft : i = 2 * m
  · have hm : m = i / 2 := by omega
    rw [Vector.getElem_set_ne h1 hi (by omega), if_pos hm, halfAt, if_pos (by omega)]
    subst hleft
    exact Vector.getElem_set_self h0
  by_cases hright : i = 2 * m + 1
  · have hm : m = i / 2 := by omega
    rw [if_pos hm, halfAt, if_neg (by omega)]
    subst hright
    exact Vector.getElem_set_self h1
  · rw [Vector.getElem_set_ne h1 hi (Ne.symm hright), Vector.getElem_set_ne h0 hi (Ne.symm hleft), if_neg (by omega)]

/-- Slots 0 to 8 fill P. -/
theorem store_p (c : Cipher) (n : Fin 521) (b : Block) (j : Nat) (hj : j < 18) :
    (c.store n b).p[j] = if n.val = j / 2 then halfAt j b else c.p[j] := by
  unfold Cipher.store
  split
  · exact getElem_set_pair c.p (by omega) (by omega) b j hj
  · rw [if_neg (by omega)]

/-- Slots 9 to 520 fill the S-boxes in turn, 128 slots each. -/
theorem store_sbox (c : Cipher) (n : Fin 521) (b : Block) (k i : Nat) (hk : k < 4) (hi : i < 256) :
    (c.store n b).sbox[k][i] = if n.val = 9 + 128 * k + i / 2 then halfAt i b else c.sbox[k][i] := by
  unfold Cipher.store
  split
  · rw [if_neg (by omega)]
  · by_cases hbox : (n.val - 9) / 128 = k
    · subst hbox
      have hslot : (n.val - 9) % 128 = i / 2 ↔ n.val = 9 + 128 * ((n.val - 9) / 128) + i / 2 := by omega
      simp only [Vector.getElem_set_self, getElem_set_pair, hslot]
    · simp only [Vector.getElem_set_ne _ hk hbox]
      rw [if_neg (by omega)]

/-- Settles O7: the rules of the store for P and for the S-boxes. -/
theorem storeFillsOnePair : Obligations.StoreFillsOnePair :=
  fun c n b => ⟨fun j => store_p c n b j j.isLt, fun k i => store_sbox c n b k i k.isLt i.isLt⟩

/-! ### A pass as a chain of 521 slots (R65, R66, R70(c)) -/

section Pass

variable {f : Cipher × Block → Fin 521 → Cipher × Block} {c : Cipher} {kw : Vector Word 18}

/-- The cipher of a pass before slot n: `passTrace` from the mixed key and the zero block. -/
def passCipher (f : Cipher × Block → Fin 521 → Cipher × Block) (c : Cipher) (kw : Vector Word 18) (n : Nat) : Cipher :=
  (passTrace f (c.mixKey kw, ⟨0, 0⟩) n).1

/-- The running block of a pass before slot n. -/
def passBlock (f : Cipher × Block → Fin 521 → Cipher × Block) (c : Cipher) (kw : Vector Word 18) (n : Nat) : Block :=
  (passTrace f (c.mixKey kw, ⟨0, 0⟩) n).2

/-- All 18 XORs come before the first encryption. -/
theorem passCipher_zero : passCipher f c kw 0 = c.mixKey kw := by
  rw [passCipher, passTrace_zero]

theorem passBlock_zero : passBlock f c kw 0 = ⟨0, 0⟩ := by
  rw [passBlock, passTrace_zero]

theorem passCipher_zero_p (i : Fin 18) : (passCipher f c kw 0).p[i] = c.p[i] ^^^ kw[i] := by
  rw [passCipher_zero]
  exact mixKey_p c kw i.val i.isLt

theorem passCipher_zero_sbox : (passCipher f c kw 0).sbox = c.sbox := by
  rw [passCipher_zero, mixKey_sbox]

theorem passBlock_succ (n : Fin 521) :
    passBlock f c kw (n.val + 1) = (f (passCipher f c kw n.val, passBlock f c kw n.val) n).2 := by
  rw [passBlock, passTrace_succ, passCipher, passBlock]

variable (hf : ∀ cb n, (f cb n).1 = cb.1.store n (f cb n).2)
include hf

theorem passCipher_succ (n : Fin 521) :
    passCipher f c kw (n.val + 1) = (passCipher f c kw n.val).store n (passBlock f c kw (n.val + 1)) := by
  rw [passCipher, passBlock, passTrace_succ, hf, passCipher]

/-- An entry that only slot k writes ends as what slot k wrote there. -/
theorem passCipher_entry (entry : Cipher → Word) (half : Block → Word) {k : Nat} (hk : k < 521)
    (hentry : ∀ c (n : Fin 521) b, entry (c.store n b) = if n.val = k then half b else entry c) :
    entry (passCipher f c kw 521) = half (passBlock f c kw (k + 1)) := by
  suffices h : ∀ m, k + 1 ≤ m → m ≤ 521 → entry (passCipher f c kw m) = half (passBlock f c kw (k + 1)) from
    h 521 hk le_rfl
  intro m hm
  induction m, hm using Nat.le_induction with
  | base =>
    intro _
    rw [passCipher_succ hf ⟨k, hk⟩, hentry, if_pos rfl]
  | succ m hm ih =>
    intro hlt
    rw [passCipher_succ hf ⟨m, hlt⟩, hentry, if_neg (Nat.ne_of_gt hm)]
    exact ih (Nat.le_of_succ_le hlt)

/-- Every word of P ends as the half its slot was given. -/
theorem passCipher_p (j : Fin 18) :
    (passCipher f c kw 521).p[j] = halfAt j.val (passBlock f c kw (j.val / 2 + 1)) :=
  passCipher_entry hf (fun c => c.p[j]) (halfAt j.val) (by omega) fun c n b => store_p c n b j.val j.isLt

/-- Every word of the S-boxes ends as the half its slot was given. -/
theorem passCipher_sbox (k : Fin 4) (i : Fin 256) :
    (passCipher f c kw 521).sbox[k][i] = halfAt i.val (passBlock f c kw (9 + 128 * k.val + i.val / 2 + 1)) :=
  passCipher_entry hf (fun c => c.sbox[k][i]) (halfAt i.val) (by omega)
    fun c n b => store_sbox c n b k.val i.val k.isLt i.isLt

end Pass

theorem expand0_eq_passCipher (c : Cipher) (kw : Vector Word 18) :
    c.expand0 kw = passCipher expand0Slot c kw 521 :=
  expand0_eq_passTrace c kw

theorem expandSalted_eq_passCipher (c : Cipher) (kw : Vector Word 18) (saltw : Vector Word 4) :
    c.expandSalted kw saltw = passCipher (expandSaltedSlot saltw) c kw 521 :=
  expandSalted_eq_passTrace c kw saltw

theorem expand0Slot_snd (cb : Cipher × Block) (n : Fin 521) : (expand0Slot cb n).2 = cb.1.encryptBlock cb.2 := by
  dsimp only [expand0Slot]

/-- Settles O8: C and B are the cipher and the running block before each slot. -/
theorem plainPassChainsAndRewritesAll : Obligations.PlainPassChainsAndRewritesAll := by
  intro c kw
  rw [expand0_eq_passCipher]
  refine ⟨passCipher expand0Slot c kw, passBlock expand0Slot c kw, passCipher_zero_p, passCipher_zero_sbox,
    passBlock_zero, fun n => ⟨?_, passCipher_succ expand0Slot_fst n⟩, rfl, passCipher_p expand0Slot_fst,
    passCipher_sbox expand0Slot_fst⟩
  rw [passBlock_succ, expand0Slot_snd]

/-! ### The salt in the salted pass (R63, R66, R70(d)) -/

theorem saltStream_of_mod (saltw : Vector Word 4) {m k : Nat} (h : m % 4 = k) (hk : k < 4) :
    saltStream saltw m = saltw[k] := by
  simp only [saltStream, h]

theorem expandSaltedSlot_snd (saltw : Vector Word 4) (cb : Cipher × Block) (n : Fin 521) :
    (expandSaltedSlot saltw cb n).2 = cb.1.encryptBlock
      ⟨cb.2.left ^^^ saltStream saltw (2 * n.val), cb.2.right ^^^ saltStream saltw (2 * n.val + 1)⟩ := by
  dsimp only [expandSaltedSlot]

/-- Settles O9: as O8, where SW(2n) and SW(2n+1) are the first or the second pair of salt words by the parity of n. -/
theorem saltedPassChainsAndRewritesAll : Obligations.SaltedPassChainsAndRewritesAll := by
  intro c kw saltw
  have hfst := expandSaltedSlot_fst saltw
  rw [expandSalted_eq_passCipher]
  refine ⟨passCipher (expandSaltedSlot saltw) c kw, passBlock (expandSaltedSlot saltw) c kw, passCipher_zero_p,
    passCipher_zero_sbox, passBlock_zero, fun n => ⟨fun heven => ?_, fun hodd => ?_, passCipher_succ hfst n⟩, rfl,
    passCipher_p hfst, passCipher_sbox hfst⟩
  · have hleft : 2 * n.val % 4 = 0 := by omega
    have hright : (2 * n.val + 1) % 4 = 1 := by omega
    rw [passBlock_succ, expandSaltedSlot_snd, saltStream_of_mod saltw hleft, saltStream_of_mod saltw hright]
  · have hleft : 2 * n.val % 4 = 2 := by omega
    have hright : (2 * n.val + 1) % 4 = 3 := by omega
    rw [passBlock_succ, expandSaltedSlot_snd, saltStream_of_mod saltw hleft, saltStream_of_mod saltw hright]

theorem saltStream_zero (m : Nat) : saltStream #v[0, 0, 0, 0] m = 0#32 := by
  have hzero : ∀ k : Fin 4, (#v[0, 0, 0, 0] : Vector Word 4)[k.val] = 0#32 := by decide
  exact hzero ⟨m % 4, Nat.mod_lt m (by decide)⟩

/-- With an all-zero salt each slot of the salted pass is the plain pass's. -/
theorem expandSaltedSlot_zero : expandSaltedSlot #v[0, 0, 0, 0] = expand0Slot := by
  funext cb n
  simp only [expandSaltedSlot, saltStream_zero, BitVec.xor_zero, expand0Slot]

/-- Settles O10: the two passes are chains of the same slots. -/
theorem zeroSaltPassIsPlainPass : Obligations.ZeroSaltPassIsPlainPass := by
  intro c kw
  rw [expandSalted_eq_passCipher, expandSaltedSlot_zero, expand0_eq_passCipher]

/-! ### The key streams (R23, R24, R62) -/

theorem keyByte_of_lt (keyw : Vector Word 18) (j : Fin 72) :
    keyByte keyw j.val = bigEndianByte keyw[j.val / 4] (j.val % 4) := by
  rw [keyByte, Vector.getElem?_eq_getElem, Option.getD_some]

/-- Byte t of word i of a key stream. -/
theorem bigEndianByte_keyStream (K : Nat → Byte) (n : Nat) (i : Fin 18) (t : Fin 4) :
    bigEndianByte (keyStream K n)[i] t.val = K ((4 * i.val + t.val) % n) := by
  have hword : (keyStream K n)[i] = keyStreamWord K n i.val := Vector.getElem_ofFn i.isLt
  rw [hword]
  exact bigEndianByte_be32 (fun t => K ((4 * i.val + t.val) % n)) t

/-- Byte t of word k is salt byte 4k + t. -/
theorem saltByte_of_word (saltw : Vector Word 4) {j : Nat} (k : Fin 4) (t : Nat) (hj : j = 4 * k.val + t) (ht : t < 4) :
    saltByte saltw j = bigEndianByte saltw[k.val] t := by
  have hword : j / 4 = k.val := by omega
  have hbyte : j % 4 = t := by omega
  rw [saltByte, hword, hbyte, Vector.getElem?_eq_getElem k.isLt, Option.getD_some]

/-- The sixteen salt bytes repeat word by word. -/
theorem kwSalt_getElem (s : State) (i : Fin 18) : (kwSalt s)[i] = s.saltw[i.val % 4] := by
  have hword : (kwSalt s)[i] = keyStreamWord (saltByte s.saltw) 16 i.val := Vector.getElem_ofFn i.isLt
  have hbyte (t : Nat) (ht : t < 4) :
      saltByte s.saltw ((4 * i.val + t) % 16) = bigEndianByte s.saltw[i.val % 4] t :=
    saltByte_of_word s.saltw ⟨i.val % 4, by omega⟩ t (by dsimp only; omega) ht
  have hfirst : saltByte s.saltw (4 * i.val % 16) = bigEndianByte s.saltw[i.val % 4] 0 := hbyte 0 (by decide)
  rw [hword, keyStreamWord, hfirst, hbyte 1 (by decide), hbyte 2 (by decide), hbyte 3 (by decide), be32_bigEndianByte]

/-- Settles O11: byte t of word i for the password, whole words for the salt. -/
theorem keyStreamsRepeatTheirBytes : Obligations.KeyStreamsRepeatTheirBytes := by
  refine fun s => ⟨fun _ i t j hj => ?_, kwSalt_getElem s⟩
  change bigEndianByte (kwKey s)[i] t.val = bigEndianByte s.keyw[j.val / 4] (j.val % 4)
  rw [kwKey, bigEndianByte_keyStream, ← hj, keyByte_of_lt]

/-! ### Keys that repeat to the same bytes (R70(a)) -/

/-- The cipher state that a command with a password leaves when it completes without error, from the key stream of the
password, the cipher state before, the salt and the cost. The commands of the last line read no password. -/
def keyedCipher (i : Instr) (kw : Vector Word 18) (c : Cipher) (saltw : Vector Word 4) (cost : Word) : Cipher :=
  match i with
  | .expand0Key => c.expand0 kw
  | .expandKeySalt => c.expandSalted kw saltw
  | .eksLoop => c.rekeyLoop cost.toNat kw (keyStream (saltByte saltw) 16)
  | .bcrypt => (canonicalCipher.expandSalted kw saltw).rekeyLoop cost.toNat kw (keyStream (saltByte saltw) 16)
  | _ => c

theorem exec_keyedCipher {i : Instr} {s t : State}
    (hi : i = .expand0Key ∨ i = .expandKeySalt ∨ i = .eksLoop ∨ i = .bcrypt) (h : exec i s = .next t)
    (herr : t.status.err = false) :
    s.KeylenValid ∧ t.cipher = keyedCipher i (kwKey s) s.cipher s.saltw s.cost := by
  rcases hi with rfl | rfl | rfl | rfl
  · rcases execExpand0Key_cases h with ⟨c, -, rfl⟩ | ⟨hlen, -, -, rfl⟩
    · cases herr
    · exact ⟨hlen, by rw [finish_cipher, keyedCipher]⟩
  · rcases execExpandKeySalt_cases h with ⟨c, -, rfl⟩ | ⟨hlen, -, -, -, rfl⟩
    · cases herr
    · exact ⟨hlen, by rw [finish_cipher, keyedCipher]⟩
  · rcases execEksLoop_cases h with ⟨c, -, rfl⟩ | ⟨-, hlen, -, -, -, rfl⟩
    · cases herr
    · exact ⟨hlen, by rw [finish_cipher, keyedCipher, kwSalt]⟩
  · rcases execBcrypt_cases h with ⟨c, -, rfl⟩ | ⟨-, hlen, -, -, rfl⟩
    · cases herr
    · exact ⟨hlen, by rw [finish_cipher, keyedCipher, bcryptCipher, kwSalt]⟩

/-- Two passwords that repeat to the same 72 bytes have one key stream. -/
theorem kwKey_congr {s t : State} (hs : s.KeylenValid) (ht : t.KeylenValid)
    (hbytes : ∀ n a b : Fin 72, a.val = n.val % s.keylen.toNat → b.val = n.val % t.keylen.toNat →
      bigEndianByte s.keyw[a.val / 4] (a.val % 4) = bigEndianByte t.keyw[b.val / 4] (b.val % 4)) :
    kwKey s = kwKey t := by
  refine keyStream_congr fun j hj => ?_
  obtain ⟨hspos, hsmax⟩ := hs
  obtain ⟨htpos, htmax⟩ := ht
  have ha : j % s.keylen.toNat < 72 := (Nat.mod_lt j hspos).trans_le hsmax
  have hb : j % t.keylen.toNat < 72 := (Nat.mod_lt j htpos).trans_le htmax
  rw [keyByte_of_lt s.keyw ⟨_, ha⟩, keyByte_of_lt t.keyw ⟨_, hb⟩]
  exact hbytes ⟨j, hj⟩ ⟨_, ha⟩ ⟨_, hb⟩ rfl rfl

/-- Settles O12: the four commands read the password only through its key stream. -/
theorem keysWithEqualRepetitionAgree : Obligations.KeysWithEqualRepetitionAgree := by
  intro i s t s' t' hi hcipher hsaltw hcost hbytes _ _ hs ht herrs herrt
  obtain ⟨hslen, hs'⟩ := exec_keyedCipher hi hs herrs
  obtain ⟨htlen, ht'⟩ := exec_keyedCipher hi ht herrt
  rw [hs', ht', kwKey_congr hslen htlen hbytes, hcipher, hsaltw, hcost]

/-! ### The commands of one pass (R67 to R69) -/

/-- Settles O15: with its three checks passed, EXPAND0_KEY has its effect. -/
theorem expandZeroKeyRunsPlainPass : Obligations.ExpandZeroKeyRunsPlainPass := by
  intro s hlen hkey hseeded
  rw [exec, execExpand0Key, (keylenError_eq_none s).2 hlen, (keyError_eq_none s).2 hkey,
    (seedError_eq_none s).2 hseeded, Option.none_or, Option.none_or, runChecked_none, State.finish]

/-- Settles O16: with its two checks passed, EXPAND0_SALT has its effect. -/
theorem expandZeroSaltRunsPlainPass : Obligations.ExpandZeroSaltRunsPlainPass := by
  intro s hsalt hseeded
  rw [exec, execExpand0Salt, (saltError_eq_none s).2 hsalt, (seedError_eq_none s).2 hseeded, Option.none_or,
    runChecked_none, State.finish]

/-- Settles O17: with its three checks passed, EXPAND_KEY_SALT has its effect. -/
theorem expandKeySaltRunsSaltedPass : Obligations.ExpandKeySaltRunsSaltedPass := by
  intro s hlen hkey hsalt hseeded
  rw [exec, execExpandKeySalt, (keylenError_eq_none s).2 hlen, (keySaltError_eq_none s).2 ⟨hkey, hsalt⟩,
    (seedError_eq_none s).2 hseeded, Option.none_or, Option.none_or, runChecked_none, State.finish]

end Sys2Proof.Proofs
end

section
/-! The EKS iterator (42_eks_iterator.md): the re-key loop as a chain of iterations, the digest block by block, what
EKS_LOOP, DIGEST and BCRYPT leave, and BCRYPT against the four commands it stands for. -/

namespace Sys2Proof.Proofs

open Sys2Proof.Machine Sys2Proof.Laws

/-! ### The re-key loop as a chain of iterations (R72) -/

/-- The cipher of the re-key loop before iteration it. -/
def rekeyTrace (kwPassword kwSaltBytes : Vector Word 18) (c : Cipher) (it : Nat) : Cipher :=
  (rekeyOnce kwPassword kwSaltBytes)^[it] c

theorem rekeyTrace_zero (kwPassword kwSaltBytes : Vector Word 18) (c : Cipher) :
    rekeyTrace kwPassword kwSaltBytes c 0 = c := by
  rw [rekeyTrace, Function.iterate_zero_apply]

theorem rekeyTrace_succ (kwPassword kwSaltBytes : Vector Word 18) (c : Cipher) (it : Nat) :
    rekeyTrace kwPassword kwSaltBytes c (it + 1) =
      ((rekeyTrace kwPassword kwSaltBytes c it).expand0 kwPassword).expand0 kwSaltBytes := by
  rw [rekeyTrace, Function.iterate_succ_apply', rekeyOnce, rekeyTrace]

theorem rekeyLoop_eq_rekeyTrace (c : Cipher) (cost : Nat) (kwPassword kwSaltBytes : Vector Word 18) :
    c.rekeyLoop cost kwPassword kwSaltBytes = rekeyTrace kwPassword kwSaltBytes c (2 ^ cost) := by
  rw [Cipher.rekeyLoop, rekeyTrace]

theorem bcryptCipher_eq_rekeyTrace (s : State) :
    bcryptCipher s = rekeyTrace (kwKey s) (kwSalt s) (canonicalCipher.expandSalted (kwKey s) s.saltw)
      (2 ^ s.cost.toNat) := by
  rw [bcryptCipher, rekeyLoop_eq_rekeyTrace]

/-! ### The digest block by block (R73, R74) -/

/-- Three blocks as the six words of CDATA. -/
def packBlocks (b0 b1 b2 : Block) : Vector Word 6 :=
  #v[b0.left, b0.right, b1.left, b1.right, b2.left, b2.right]

theorem ctext_eq_packBlocks :
    ctext = packBlocks ⟨0x4F727068, 0x65616E42⟩ ⟨0x65686F6C, 0x64657253⟩ ⟨0x63727944, 0x6F756274⟩ := rfl

theorem digestRound_packBlocks (c : Cipher) (b0 b1 b2 : Block) :
    c.digestRound (packBlocks b0 b1 b2) =
      packBlocks (c.encryptBlock b0) (c.encryptBlock b1) (c.encryptBlock b2) := rfl

/-- The three blocks never meet, whatever the number of rounds. -/
theorem digestRound_iterate_packBlocks (c : Cipher) (n : Nat) (b0 b1 b2 : Block) :
    c.digestRound^[n] (packBlocks b0 b1 b2) =
      packBlocks (c.encryptBlock^[n] b0) (c.encryptBlock^[n] b1) (c.encryptBlock^[n] b2) := by
  induction n with
  | zero => simp only [Function.iterate_zero_apply]
  | succ n ih => simp only [Function.iterate_succ_apply', ih, digestRound_packBlocks]

theorem digest_eq_packBlocks (c : Cipher) :
    c.digest = packBlocks (c.encryptBlock^[64] ⟨0x4F727068, 0x65616E42⟩)
      (c.encryptBlock^[64] ⟨0x65686F6C, 0x64657253⟩) (c.encryptBlock^[64] ⟨0x63727944, 0x6F756274⟩) := by
  rw [Cipher.digest, ctext_eq_packBlocks, digestRound_iterate_packBlocks]

/-! ### The three commands on operands they may use (R72, R75, R76) -/

/-- The operands that EKS_LOOP and BCRYPT read are valid (R71, R21, R103). -/
structure BcryptReady (s : State) : Prop where
  cost : s.CostValid
  keylen : s.KeylenValid
  key : s.KeyWritten
  salt : s.SaltWritten

theorem exec_eksLoop_of_ready {s : State} (hs : BcryptReady s) (hseeded : s.Seeded) :
    exec .eksLoop s = .next
      ({ s with cipher := s.cipher.rekeyLoop s.cost.toNat (kwKey s) (kwSalt s) } : State).finish := by
  rw [exec, execEksLoop, (costError_eq_none s).2 hs.cost, (keylenError_eq_none s).2 hs.keylen,
    (keySaltError_eq_none s).2 ⟨hs.key, hs.salt⟩, (seedError_eq_none s).2 hseeded, Option.none_or, Option.none_or,
    Option.none_or, runChecked_none]

theorem exec_digest_of_seeded {s : State} (hseeded : s.Seeded) :
    exec .digest s = .next
      ({ s with cdata := s.cipher.digest, valid := { s.valid with cv := true } } : State).finish := by
  rw [exec, execDigest, (seedError_eq_none s).2 hseeded, runChecked_none]

theorem exec_bcrypt_of_ready {s : State} (hs : BcryptReady s) :
    exec .bcrypt s = .next
      ({ s with
        cipher := bcryptCipher s
        cdata := (bcryptCipher s).digest
        valid := { s.valid with sv := true, cv := true } } : State).finish := by
  rw [exec, execBcrypt, (costError_eq_none s).2 hs.cost, (keylenError_eq_none s).2 hs.keylen,
    (keySaltError_eq_none s).2 ⟨hs.key, hs.salt⟩, Option.none_or, Option.none_or, runChecked_none, bcryptCipher]

/-- Settles O18: C is the cipher of the loop before each iteration. -/
theorem eksLoopIteratesPasswordThenSalt : Obligations.EksLoopIteratesPasswordThenSalt := by
  intro s hcost hlen hkey hsalt hseeded
  refine ⟨rekeyTrace (kwKey s) (kwSalt s) s.cipher, rekeyTrace_zero _ _ _, rekeyTrace_succ _ _ _, ?_⟩
  rw [exec_eksLoop_of_ready ⟨hcost, hlen, hkey, hsalt⟩ hseeded, rekeyLoop_eq_rekeyTrace, State.finish]

/-- Settles O19: the digest packs the three blocks, each encrypted 64 times. -/
theorem digestEncryptsEachBlockSixtyFourTimes : Obligations.DigestEncryptsEachBlockSixtyFourTimes := by
  intro s hseeded
  refine ⟨_, _, _, rfl, rfl, rfl, ?_⟩
  rw [exec_digest_of_seeded hseeded, digest_eq_packBlocks, packBlocks, State.finish]

/-- Settles O20: C is the chain of O18, begun at the salted pass over the canonical state. -/
theorem bcryptRunsTheWholeProcedure : Obligations.BcryptRunsTheWholeProcedure := by
  intro s hcost hlen hkey hsalt
  refine ⟨rekeyTrace (kwKey s) (kwSalt s) (canonicalCipher.expandSalted (kwKey s) s.saltw), rekeyTrace_zero _ _ _,
    rekeyTrace_succ _ _ _, ?_⟩
  rw [exec_bcrypt_of_ready ⟨hcost, hlen, hkey, hsalt⟩, bcryptCipher_eq_rekeyTrace, State.finish]

/-! ### The operands stay as they were from command to command -/

/-- t holds the operands of BCRYPT as s does, and the valid bits of key and salt. -/
structure SameOperands (s t : State) : Prop where
  cost : t.cost = s.cost
  keylen : t.keylen = s.keylen
  keyw : t.keyw = s.keyw
  saltw : t.saltw = s.saltw
  keyv : t.valid.keyv = s.valid.keyv
  saltv : t.valid.saltv = s.valid.saltv

theorem SameOperands.trans {s t u : State} (h : SameOperands s t) (h' : SameOperands t u) : SameOperands s u :=
  ⟨h'.cost.trans h.cost, h'.keylen.trans h.keylen, h'.keyw.trans h.keyw, h'.saltw.trans h.saltw,
    h'.keyv.trans h.keyv, h'.saltv.trans h.saltv⟩

theorem sameOperands_acceptCommand (w : Word) (s : State) : SameOperands s (s.acceptCommand w) := by
  constructor <;> simp

/-- No command writes an operand of BCRYPT, whether it completes normally or raises an error. -/
theorem sameOperands_exec {i : Instr} {s t : State} (h : exec i s = .next t) : SameOperands s t := by
  obtain ⟨hkeyv, hsaltv⟩ : t.valid.keyv = s.valid.keyv ∧ t.valid.saltv = s.valid.saltv := by
    rcases exec_cases h with ⟨c, -, -, rfl⟩ | ⟨-, -, -, -, -, -, -, -, -, hv | hv | ⟨-, hv⟩ | hv⟩
    · exact ⟨rfl, rfl⟩
    all_goals rw [hv]; exact ⟨rfl, rfl⟩
  have hframe := exec_frame h
  exact ⟨hframe.cost, hframe.keylen, hframe.keyw, hframe.saltw, hkeyv, hsaltv⟩

theorem sameOperands_exec_acceptCommand {i : Instr} {w : Word} {s t : State}
    (h : exec i (s.acceptCommand w) = .next t) : SameOperands s t :=
  (sameOperands_acceptCommand w s).trans (sameOperands_exec h)

namespace SameOperands

variable {s t : State}

theorem kwKey_eq (h : SameOperands s t) : kwKey t = kwKey s := by
  rw [kwKey, h.keyw, h.keylen, kwKey]

theorem kwSalt_eq (h : SameOperands s t) : kwSalt t = kwSalt s := by
  rw [kwSalt, h.saltw, kwSalt]

theorem bcryptCipher_eq (h : SameOperands s t) : bcryptCipher t = bcryptCipher s := by
  rw [bcryptCipher, h.kwKey_eq, h.kwSalt_eq, h.saltw, h.cost, bcryptCipher]

end SameOperands

theorem SameOperands.bcryptReady {s t : State} (h : SameOperands s t) (hs : BcryptReady s) : BcryptReady t where
  cost := by rw [State.CostValid, h.cost]; exact hs.cost
  keylen := by rw [State.KeylenValid, h.keylen]; exact hs.keylen
  key := by rw [State.KeyWritten, h.keylen, h.keyv]; exact hs.key
  salt := by rw [State.SaltWritten, h.saltv]; exact hs.salt

theorem BcryptReady.acceptCommand {s : State} (hs : BcryptReady s) (w : Word) : BcryptReady (s.acceptCommand w) :=
  (sameOperands_acceptCommand w s).bcryptReady hs

/-! ### BCRYPT and the four commands, each accepted and completed (R77) -/

/-- LASTOP after a command's own word was accepted and the command has completed. -/
theorem exec_acceptCommand_lastop {i : Instr} {s t : State}
    (h : exec i (s.acceptCommand (encode i)) = .next t) : t.status.lastop = i.opcode := by
  rw [exec_lastop h, acceptCommand_status]
  exact (encode_fields i).2

theorem exec_init_acceptCommand (w : Word) (s : State) :
    ∃ t, exec .init (s.acceptCommand w) = .next t ∧ t.Seeded ∧ t.cipher = canonicalCipher :=
  ⟨_, execInit_eq _, by rw [State.Seeded, finish_valid], by simp⟩

theorem exec_expandKeySalt_acceptCommand {s : State} (hs : BcryptReady s) (hseeded : s.Seeded) (w : Word) :
    ∃ t, exec .expandKeySalt (s.acceptCommand w) = .next t ∧ t.Seeded
      ∧ t.cipher = s.cipher.expandSalted (kwKey s) s.saltw := by
  obtain ⟨-, hlen, hkey, hsalt⟩ := hs.acceptCommand w
  refine ⟨_, expandKeySaltRunsSaltedPass _ hlen hkey hsalt hseeded, hseeded, ?_⟩
  rw [(sameOperands_acceptCommand w s).kwKey_eq, acceptCommand_cipher, acceptCommand_saltw]

theorem exec_eksLoop_acceptCommand {s : State} (hs : BcryptReady s) (hseeded : s.Seeded) (w : Word) :
    ∃ t, exec .eksLoop (s.acceptCommand w) = .next t ∧ t.Seeded
      ∧ t.cipher = s.cipher.rekeyLoop s.cost.toNat (kwKey s) (kwSalt s) := by
  have hops := sameOperands_acceptCommand w s
  refine ⟨_, exec_eksLoop_of_ready (hs.acceptCommand w) hseeded, hseeded, ?_⟩
  rw [finish_cipher, hops.kwKey_eq, hops.kwSalt_eq, acceptCommand_cipher, acceptCommand_cost]

theorem exec_digest_acceptCommand {s : State} (hseeded : s.Seeded) (w : Word) :
    ∃ t, exec .digest (s.acceptCommand w) = .next t ∧ t.cipher = s.cipher ∧ t.cdata = s.cipher.digest
      ∧ t.valid.sv = true ∧ t.valid.cv = true :=
  ⟨_, exec_digest_of_seeded hseeded, by simp, by simp, hseeded, by simp⟩

theorem exec_bcrypt_acceptCommand {s : State} (hs : BcryptReady s) (w : Word) :
    ∃ t, exec .bcrypt (s.acceptCommand w) = .next t ∧ t.cipher = bcryptCipher s
      ∧ t.cdata = (bcryptCipher s).digest ∧ t.valid.sv = true ∧ t.valid.cv = true := by
  have hcipher := (sameOperands_acceptCommand w s).bcryptCipher_eq
  refine ⟨_, exec_bcrypt_of_ready (hs.acceptCommand w), ?_, ?_, by simp, by simp⟩
  · rw [finish_cipher, hcipher]
  · rw [finish_cdata, hcipher]

/-- Settles O21: the four commands hand the cipher on and keep the operands, so DIGEST meets the cipher of BCRYPT. -/
theorem bcryptEqualsTheFourCommands : Obligations.BcryptEqualsTheFourCommands := by
  intro s hcost hlen hkey hsalt
  have hs : BcryptReady s := ⟨hcost, hlen, hkey, hsalt⟩
  obtain ⟨t, ht, hcipher, hcdata, hsv, hcv⟩ := exec_bcrypt_acceptCommand hs (encode .bcrypt)
  obtain ⟨t1, h1, hseeded1, hcipher1⟩ := exec_init_acceptCommand (encode .init) s
  have hops1 : SameOperands s t1 := sameOperands_exec_acceptCommand h1
  obtain ⟨t2, h2, hseeded2, hcipher2⟩ :=
    exec_expandKeySalt_acceptCommand (hops1.bcryptReady hs) hseeded1 (encode .expandKeySalt)
  have hops2 : SameOperands s t2 := hops1.trans (sameOperands_exec_acceptCommand h2)
  obtain ⟨t3, h3, hseeded3, hcipher3⟩ :=
    exec_eksLoop_acceptCommand (hops2.bcryptReady hs) hseeded2 (encode .eksLoop)
  obtain ⟨t4, h4, hcipher4, hcdata4, hsv4, hcv4⟩ := exec_digest_acceptCommand hseeded3 (encode .digest)
  have hchain : t3.cipher = bcryptCipher s := by
    rw [hcipher3, hcipher2, hcipher1, hops1.kwKey_eq, hops1.saltw, hops2.kwKey_eq, hops2.kwSalt_eq, hops2.cost,
      bcryptCipher]
  exact ⟨t, t1, t2, t3, t4, ht, h1, h2, h3, h4, by rw [hcipher, hcipher4, hchain],
    by rw [hcdata, hcdata4, hchain], hsv.trans hsv4.symm, hcv.trans hcv4.symm, exec_acceptCommand_lastop ht,
    exec_acceptCommand_lastop h4⟩

end Sys2Proof.Proofs
end

section
/-! The canonical tables (43_pi_constants.md): the sum modulo 2^32 and the XOR of each table, as R81 lists them. They are
closed values that the kernel evaluates, one lemma per table, so that a slip in a transcribed row shows at its own table. -/

namespace Sys2Proof.Proofs

open Sys2Proof.Machine

theorem piP_sum_xor : piP.toList.sum = 0x8E4D14CC ∧ piP.toList.foldl (· ^^^ ·) 0 = 0xB73AD7EA := by
  decide

theorem piS0_sum_xor : piS0.toList.sum = 0x4B745115 ∧ piS0.toList.foldl (· ^^^ ·) 0 = 0x4EB4DB7F := by
  decide +kernel

theorem piS1_sum_xor : piS1.toList.sum = 0x72FF37B2 ∧ piS1.toList.foldl (· ^^^ ·) 0 = 0xC727E122 := by
  decide +kernel

theorem piS2_sum_xor : piS2.toList.sum = 0x2AC02B91 ∧ piS2.toList.foldl (· ^^^ ·) 0 = 0x462A5D01 := by
  decide +kernel

theorem piS3_sum_xor : piS3.toList.sum = 0xF43E3A88 ∧ piS3.toList.foldl (· ^^^ ·) 0 = 0x1779E2BC := by
  decide +kernel

/-- Settles O48: R81's row for each of the five tables. -/
theorem piTablesHaveTheirChecksums : Obligations.PiTablesHaveTheirChecksums :=
  ⟨piP_sum_xor, piS0_sum_xor, piS1_sum_xor, piS2_sum_xor, piS3_sum_xor⟩

end Sys2Proof.Proofs
end

section
/-! Key preparation (45_host_sequences.md section 1): what `prepareKey` hands over for a refused request, and for an accepted
one of at least 72 bytes, where the terminator of R82 falls past the cut of R83. -/

namespace Sys2Proof.Proofs

open Sys2Proof.Machine

theorem prepareKey_of_legacyVariant {tag : VersionTag} {bytes : List Byte} (h : legacyVariant tag bytes = true) :
    prepareKey tag bytes = .error .legacyRefused := by
  simp [prepareKey, h]

/-- The terminator and the bytes after the first 72 are cut away together (R82, R83). -/
theorem prepareKey_append {tag : VersionTag} {a b : List Byte} (ha : a.length = 72)
    (h : legacyVariant tag (a ++ b) = false) : prepareKey tag (a ++ b) = .ok a := by
  have hne : a ≠ [] := List.ne_nil_of_length_pos (by omega)
  have hcut : ((if tag.terminated then a ++ b ++ [0] else a ++ b).take 72) = a := by
    split
    · rw [List.append_assoc, List.take_left' ha]
    · exact List.take_left' ha
  simp only [prepareKey, h, hcut, hne, Bool.false_eq_true, if_false]

/-- The refusal of R97 looks at no byte past the first 72 (log entry 11). -/
theorem legacyVariant_append (tag : VersionTag) {a : List Byte} (b : List Byte) (ha : a.length = 72) :
    legacyVariant tag (a ++ b) = legacyVariant tag a := by
  cases tag with
  | v2a => simp only [legacyVariant, List.take_left' ha, List.take_of_length_le ha.le]
  | v2 | v2b | v2x | v2y => rfl

theorem legacyVariant_v2a_of_lt {bytes : List Byte} (h : ∀ x ∈ bytes, x.toNat < 0x80) :
    legacyVariant .v2a bytes = false := by
  refine List.any_eq_false.mpr fun x hx => ?_
  have hlt : x.toNat < 0x80 := h x (List.mem_of_mem_take hx)
  simpa using hlt

/-- Settles O49: an accepted request gives its first 72 bytes, and the refusal does not look further. -/
theorem keyMaterialPastSeventyTwoBytesIsDropped : Obligations.KeyMaterialPastSeventyTwoBytesIsDropped := by
  intro tag a b c ha
  refine ⟨fun htag => ?_, fun htag => ?_⟩
  · have haccepted : legacyVariant tag a = false := by
      obtain rfl | rfl | rfl | ⟨rfl, hlow⟩ := htag
      · rfl
      · rfl
      · rfl
      · exact legacyVariant_v2a_of_lt hlow
    have hkey (rest : List Byte) : prepareKey tag (a ++ rest) = .ok a :=
      prepareKey_append ha ((legacyVariant_append tag rest ha).trans haccepted)
    exact ⟨hkey b, (hkey b).trans (hkey c).symm⟩
  · subst htag
    exact prepareKey_of_legacyVariant rfl

end Sys2Proof.Proofs
end

section
/-! The base64 codec (45_host_sequences.md section 2). `sixBitGroups` is the sequence of six-bit values between the bytes and
the characters: encoding writes each value as its character, decoding reads the values back and packs them. -/

namespace Sys2Proof.Proofs

open Sys2Proof.Machine

/-- idx undoes the alphabet on the six-bit values (R88). -/
theorem alphabetIndex_alphabetChar {n : Nat} (h : n < 64) : alphabetIndex (alphabetChar n) = some n := by
  have hall : ∀ i : Fin 64, alphabetIndex (alphabetChar i) = some i.val := by decide +kernel
  exact hall ⟨n, h⟩

/-- The six-bit values of R89, before each becomes a character. -/
def sixBitGroups : List Byte → List Nat
  | [] => []
  | [g0] => [g0.toNat / 4, g0.toNat % 4 * 16]
  | [g0, g1] => [g0.toNat / 4, g0.toNat % 4 * 16 + g1.toNat / 16, g1.toNat % 16 * 4]
  | g0 :: g1 :: g2 :: rest =>
    [g0.toNat / 4, g0.toNat % 4 * 16 + g1.toNat / 16, g1.toNat % 16 * 4 + g2.toNat / 64, g2.toNat % 64]
      ++ sixBitGroups rest

theorem encodeGroups_eq_map (b : List Byte) : encodeGroups b = (sixBitGroups b).map alphabetChar := by
  induction b using sixBitGroups.induct with
  | case1 => rfl
  | case2 g0 => rfl
  | case3 g0 g1 => rfl
  | case4 g0 g1 g2 rest ih => simp [encodeGroups, sixBitGroups, ih]

theorem lt_of_mem_sixBitGroups {b : List Byte} : ∀ n ∈ sixBitGroups b, n < 64 := by
  induction b using sixBitGroups.induct with
  | case1 => simp [sixBitGroups]
  | case2 g0 =>
    simp only [sixBitGroups, List.forall_mem_cons]
    exact ⟨by omega, by omega, by simp⟩
  | case3 g0 g1 =>
    simp only [sixBitGroups, List.forall_mem_cons]
    exact ⟨by omega, by omega, by omega, by simp⟩
  | case4 g0 g1 g2 rest ih =>
    simp only [sixBitGroups, List.cons_append, List.nil_append, List.forall_mem_cons]
    exact ⟨by omega, by omega, by omega, by omega, ih⟩

/-- Decoding does not stop early in a text of alphabet characters, and reads back the values they stand for (R90). -/
theorem filterMap_takeWhile_map_alphabetChar {values : List Nat} (h : ∀ n ∈ values, n < 64) :
    ((values.map alphabetChar).takeWhile fun c => (alphabetIndex c).isSome).filterMap alphabetIndex = values := by
  induction values with
  | nil => rfl
  | cons n values ih =>
    obtain ⟨hn, hvalues⟩ := List.forall_mem_cons.mp h
    have hread := alphabetIndex_alphabetChar hn
    simp [hread, ih hvalues]

theorem ofNat_eq_of_eq_toNat {n : Nat} {g : Byte} (h : n = g.toNat) : BitVec.ofNat 8 n = g := by
  rw [h, BitVec.ofNat_toNat, BitVec.setWidth_eq]

/-- The first byte of a group comes back whatever low bits share its second value. -/
theorem pack_first (g : Byte) {low : Nat} (h : low < 16) :
    BitVec.ofNat 8 (g.toNat / 4 * 4 + (g.toNat % 4 * 16 + low) / 16) = g :=
  ofNat_eq_of_eq_toNat (by omega)

/-- The second byte comes back whatever the bits beside it in its two values. -/
theorem pack_second (high : Nat) (g : Byte) {low : Nat} (h : low < 4) :
    BitVec.ofNat 8 ((high * 16 + g.toNat / 16) % 16 * 16 + (g.toNat % 16 * 4 + low) / 4) = g :=
  ofNat_eq_of_eq_toNat (by omega)

/-- The third byte comes back whatever high bits share its first value. -/
theorem pack_third (high : Nat) (g : Byte) :
    BitVec.ofNat 8 ((high * 4 + g.toNat / 64) % 4 * 64 + g.toNat % 64) = g :=
  ofNat_eq_of_eq_toNat (by omega)

/-- Packing the six-bit values of R89 as R90 does gives the bytes back. -/
theorem decodeGroups_sixBitGroups (b : List Byte) : decodeGroups (sixBitGroups b) = b := by
  induction b using sixBitGroups.induct with
  | case1 => rfl
  | case2 g0 => exact congrArg ([·]) (pack_first g0 (low := 0) (by omega))
  | case3 g0 g1 =>
    have h0 := pack_first g0 (low := g1.toNat / 16) (by omega)
    have h1 := pack_second (g0.toNat % 4) g1 (low := 0) (by omega)
    exact congrArg₂ ([·, ·]) h0 h1
  | case4 g0 g1 g2 rest ih =>
    have h0 := pack_first g0 (low := g1.toNat / 16) (by omega)
    have h1 := pack_second (g0.toNat % 4) g1 (low := g2.toNat / 64) (by omega)
    have h2 := pack_third (g1.toNat % 16) g2
    simp only [sixBitGroups, List.cons_append, List.nil_append, decodeGroups, h0, h1, h2, ih]

/-- Settles O50: the characters between encode and decode stand for the six-bit values of the bytes. -/
theorem codecRoundTrips : Obligations.CodecRoundTrips := by
  intro b hb
  have hencode : encode64 b b.length = .ok (encodeGroups b) := by
    simp [encode64, hb]
  have hdecode : decode64 (encodeGroups b) b.length = .ok b := by
    simp [decode64, hb, encodeGroups_eq_map, filterMap_takeWhile_map_alphabetChar lt_of_mem_sixBitGroups,
      decodeGroups_sixBitGroups]
  exact ⟨encodeGroups b, hencode, hdecode⟩

end Sys2Proof.Proofs
end

section
/-! Errors (60_exceptions.md): a command as its first applicable error and its effect, and the statements on STATUS at a
completion. -/

namespace Sys2Proof.Proofs

open Sys2Proof.Machine Sys2Proof.Laws

/-! ### The first applicable error of a command (R99, R101 to R105) -/

open Classical in
/-- The first error in the order of R105 that applies to the command. -/
noncomputable def firstError (i : Instr) (s : State) : Option ErrCode :=
  if Applies i s .cost then some .cost
  else if Applies i s .keylen then some .keylen
  else if Applies i s .uninit then some .uninit
  else if Applies i s .nostate then some .nostate
  else none

theorem firstError_eq_none_iff (i : Instr) (s : State) : firstError i s = none ↔ ∀ e, ¬ Applies i s e := by
  constructor
  · intro h e
    unfold firstError at h
    split_ifs at h
    cases e with
    | ok | illegal => exact id
    | cost | keylen | uninit | nostate => assumption
  · intro h
    simp only [firstError, h, if_false]

theorem firstError_applies {i : Instr} {s : State} {c : ErrCode} (h : firstError i s = some c) : Applies i s c := by
  unfold firstError at h
  split_ifs at h <;> cases h <;> assumption

/-- R105: the error that comes first among those that apply is the one reported. -/
theorem firstError_eq_some {i : Instr} {s : State} {e : ErrCode} (he : Applies i s e)
    (hfirst : ∀ e', Applies i s e' → priority e ≤ priority e') : firstError i s = some e := by
  have hbefore (e' : ErrCode) (hlt : priority e' < priority e) : ¬ Applies i s e' :=
    fun he' => (hfirst e' he').not_gt hlt
  cases e with
  | ok | illegal => exact he.elim
  | cost => rw [firstError, if_pos he]
  | keylen => rw [firstError, if_neg (hbefore .cost (by decide)), if_pos he]
  | uninit =>
    rw [firstError, if_neg (hbefore .cost (by decide)), if_neg (hbefore .keylen (by decide)), if_pos he]
  | nostate =>
    rw [firstError, if_neg (hbefore .cost (by decide)), if_neg (hbefore .keylen (by decide)),
      if_neg (hbefore .uninit (by decide)), if_pos he]

/-- The errors that apply are decided by COST, KEYLEN and VALID. -/
theorem applies_congr {s t : State} (i : Instr) (hcost : s.cost = t.cost) (hkeylen : s.keylen = t.keylen)
    (hvalid : s.valid = t.valid) : Applies i s = Applies i t := by
  funext e
  cases e <;> simp only [Applies, State.CostValid, State.KeylenValid, State.KeyWritten, State.SaltWritten,
    State.BlockWritten, State.Seeded, hcost, hkeylen, hvalid]

theorem firstError_congr {s t : State} (i : Instr) (hcost : s.cost = t.cost) (hkeylen : s.keylen = t.keylen)
    (hvalid : s.valid = t.valid) : firstError i s = firstError i t := by
  rw [firstError, applies_congr i hcost hkeylen hvalid, firstError]

/-! ### A command is its first error or its effect (R98, R111) -/

/-- What a command does to the words and the valid bits when no error applies (R60, R61, R67 to R69, R72, R75, R76). -/
def commandEffect (i : Instr) (s : State) : State :=
  match i with
  | .init => { s with cipher := canonicalCipher, valid := { s.valid with sv := true } }
  | .encrypt =>
    { s with
      dl := (s.cipher.encryptBlock ⟨s.dl, s.dr⟩).left
      dr := (s.cipher.encryptBlock ⟨s.dl, s.dr⟩).right }
  | .expand0Key => { s with cipher := s.cipher.expand0 (kwKey s) }
  | .expand0Salt => { s with cipher := s.cipher.expand0 (kwSalt s) }
  | .expandKeySalt => { s with cipher := s.cipher.expandSalted (kwKey s) s.saltw }
  | .eksLoop => { s with cipher := s.cipher.rekeyLoop s.cost.toNat (kwKey s) (kwSalt s) }
  | .digest => { s with cdata := s.cipher.digest, valid := { s.valid with cv := true } }
  | .bcrypt =>
    { s with
      cipher := bcryptCipher s
      cdata := (bcryptCipher s).digest
      valid := { s.valid with sv := true, cv := true } }

/-- The checks at the head of a command, in its own order (R61, R67 to R69, R72, R75, R76). -/
def commandCheck (i : Instr) (s : State) : Option ErrCode :=
  match i with
  | .init => none
  | .encrypt => s.blockError.or s.seedError
  | .expand0Key => s.keylenError.or (s.keyError.or s.seedError)
  | .expand0Salt => s.saltError.or s.seedError
  | .expandKeySalt => s.keylenError.or (s.keySaltError.or s.seedError)
  | .eksLoop => s.costError.or (s.keylenError.or (s.keySaltError.or s.seedError))
  | .digest => s.seedError
  | .bcrypt => s.costError.or (s.keylenError.or s.keySaltError)

theorem exec_eq_commandCheck (i : Instr) (s : State) :
    exec i s = s.runChecked (commandCheck i s) (commandEffect i) := by
  cases i <;> rfl

section Checks

variable (s : State)

theorem costError_eq_ite : s.costError = if s.CostValid then none else some .cost := rfl

theorem keylenError_eq_ite : s.keylenError = if s.KeylenValid then none else some .keylen := rfl

theorem keyError_eq_ite : s.keyError = if s.KeyWritten then none else some .uninit := by
  simp only [State.keyError, keyReady_iff]

theorem saltError_eq_ite : s.saltError = if s.SaltWritten then none else some .uninit := by
  simp only [State.saltError, saltReady_iff]

theorem keySaltError_eq_ite :
    s.keySaltError = if s.SaltWritten ∧ s.KeyWritten then none else some .uninit := by
  simp only [State.keySaltError, Bool.and_eq_true, keyReady_iff, saltReady_iff, and_comm]

theorem blockError_eq_ite : s.blockError = if s.BlockWritten then none else some .uninit := by
  simp only [State.blockError, Bool.and_eq_true]

theorem seedError_eq_ite : s.seedError = if s.Seeded then none else some .nostate := rfl

end Checks

theorem ite_none_or (P : Prop) [Decidable P] (e : ErrCode) (o : Option ErrCode) :
    (if P then none else some e).or o = if P then o else some e := by
  split <;> rfl

/-- R105: the checks of each command are made in the order of the errors. -/
theorem commandCheck_eq_firstError (i : Instr) (s : State) : commandCheck i s = firstError i s := by
  cases i <;>
    simp only [commandCheck, firstError, Applies, costError_eq_ite, keylenError_eq_ite, keyError_eq_ite,
      saltError_eq_ite, keySaltError_eq_ite, blockError_eq_ite, seedError_eq_ite, ite_none_or, reduceCtorEq, ne_eq,
      not_true_eq_false, not_false_eq_true, or_false, false_or, or_self, false_and, true_and, and_false, and_true,
      or_true, ← not_and_or, ite_not, if_false]

theorem exec_eq_runChecked (i : Instr) (s : State) :
    exec i s = s.runChecked (firstError i s) (commandEffect i) := by
  rw [exec_eq_commandCheck, commandCheck_eq_firstError]

theorem exec_of_firstError {i : Instr} {s : State} {c : ErrCode} (h : firstError i s = some c) :
    exec i s = .next (s.raiseError c) := by
  rw [exec_eq_runChecked, h, runChecked_some]

theorem exec_of_no_error {i : Instr} {s : State} (h : firstError i s = none) :
    exec i s = .next (commandEffect i s).finish := by
  rw [exec_eq_runChecked, h, runChecked_none]

@[simp] theorem commandEffect_status (i : Instr) (s : State) : (commandEffect i s).status = s.status := by
  cases i <;> simp only [commandEffect]

@[simp] theorem commandEffect_sequencer (i : Instr) (s : State) : (commandEffect i s).sequencer = s.sequencer := by
  cases i <;> simp only [commandEffect]

@[simp] theorem commandEffect_events (i : Instr) (s : State) : (commandEffect i s).events = s.events := by
  cases i <;> simp only [commandEffect]

@[simp] theorem commandEffect_response (i : Instr) (s : State) : (commandEffect i s).response = s.response := by
  cases i <;> simp only [commandEffect]

@[simp] theorem commandEffect_draws (i : Instr) (s : State) : (commandEffect i s).draws = s.draws := by
  cases i <;> simp only [commandEffect]

/-- A command leaves ERRCODE as it was, or puts there an error that applies to it. -/
theorem exec_errcode {i : Instr} {s t : State} (h : exec i s = .next t) :
    t.status.errcode = s.status.errcode ∨ Applies i s t.status.errcode := by
  cases hf : firstError i s with
  | none =>
    rw [exec_of_no_error hf] at h
    cases h
    exact .inl (by simp)
  | some c =>
    rw [exec_of_firstError hf] at h
    cases h
    exact .inr (firstError_applies hf)

/-! ### Every step answers a next state (R98, R117) -/

theorem completeCommand_next (s : State) : ∃ t, s.completeCommand = .next t := by
  cases hq : s.sequencer with
  | idle => exact ⟨s, completeCommand_idle hq⟩
  | running w =>
    cases hd : decode w with
    | ok i => exact completeCommand_ok hq hd ▸ exec_next i s
    | error e => exact ⟨_, completeCommand_error hq hd⟩

/-- Settles O44, by the event of the step. -/
theorem everyStepAnswersNext : Obligations.EveryStepAnswersNext := by
  intro s
  cases he : s.events with
  | nil => exact step_nil he ▸ completeCommand_next s
  | cons e rest =>
    rw [step_cons he]
    cases e with
    | complete => exact completeCommand_next _
    | read width off => exact ⟨_, rfl⟩
    | write width off v => exact ⟨_, rfl⟩
    | reset => exact ⟨_, rfl⟩

/-! ### STATUS at a completion (R104 to R106, R111) -/

/-- Everything a completion can do to STATUS: raise an error, or set DONE and nothing else. -/
theorem step_completes_cases {s t : State} {w : Word} (hc : s.Completes w) (h : step s = .next t) :
    (∃ c, c ≠ .ok ∧ t = State.raiseError c { s with events := s.events.tail })
      ∨ (t.sequencer = .idle ∧ t.status = { s.status with done := true }) := by
  rw [step_completes hc] at h
  rcases completeCommand_cases h with ⟨hidle, -⟩ | ⟨w', i, -, -, he⟩ | ⟨w', e, -, -, rfl⟩
  · rw [hc.1] at hidle
    cases hidle
  · rcases exec_cases he with ⟨c, hok, -, rfl⟩ | ⟨hseq, hstatus, -⟩
    · exact .inl ⟨c, hok, rfl⟩
    · exact .inr ⟨hseq, hstatus⟩
  · exact .inl ⟨.illegal, by decide, rfl⟩

/-- Settles O22: the completion runs the command, whose first error does not depend on the schedule. -/
theorem firstApplicableErrorIsReported : Obligations.FirstApplicableErrorIsReported := by
  refine fun s w hc => ⟨fun hill => ?_, fun i hd => ?_⟩
  · obtain ⟨e, he⟩ := (illegalWord_iff w).1 hill
    exact ⟨_, step_completes_error hc he, rfl, rfl⟩
  · have hevents : firstError i { s with events := s.events.tail } = firstError i s := firstError_congr i rfl rfl rfl
    rw [step_completes_ok hc hd]
    refine ⟨fun e he hfirst => ?_, fun hnone => ?_⟩
    · exact ⟨_, exec_of_firstError (hevents.trans (firstError_eq_some he hfirst)), rfl, rfl⟩
    · exact ⟨_, exec_of_no_error (hevents.trans ((firstError_eq_none_iff i s).2 hnone)), by simp, by simp⟩

/-- Settles O23: a completion that only sets DONE leaves ERR at 0, so this one raised an error. -/
theorem errorChangesOnlyStatus : Obligations.ErrorChangesOnlyStatus := by
  intro s t w hc hclear h herr
  rcases step_completes_cases hc h with ⟨c, -, rfl⟩ | ⟨-, hstatus⟩
  · rfl
  · rw [hstatus, hclear] at herr
    cases herr

/-- Settles O24: acceptance is the write to CMD, and a completion does one of two things. -/
theorem statusUpdatesOfACommand : Obligations.StatusUpdatesOfACommand := by
  refine ⟨fun s w rest hq he => step_write_cmd hq he, fun s w hc => ?_⟩
  obtain ⟨t, h⟩ := everyStepAnswersNext s
  refine ⟨t, h, ?_⟩
  rcases step_completes_cases hc h with ⟨c, hok, rfl⟩ | ⟨hseq, hstatus⟩
  · exact ⟨rfl, .inr ⟨c, hok, rfl⟩⟩
  · exact ⟨hseq, .inl hstatus⟩

theorem exec_errcode_ne_nostate {i : Instr} {s t : State} (hi : i = .init ∨ i = .bcrypt)
    (hbefore : s.status.errcode ≠ .nostate) (h : exec i s = .next t) : t.status.errcode ≠ .nostate := by
  intro herr
  rcases exec_errcode h with hsame | happlies
  · exact hbefore (hsame ▸ herr)
  · rw [herr] at happlies
    obtain ⟨⟨hinit, hbcrypt⟩, -⟩ := happlies
    exact hi.elim hinit hbcrypt

/-- Settles O25: NOSTATE applies where nothing else does, so it is the first; to INIT and BCRYPT it never applies. -/
theorem unseededBlockRaisesNoState : Obligations.UnseededBlockRaisesNoState := by
  refine ⟨fun i s hinit hbcrypt hunseeded hother => ?_, fun s t hbefore h => ?_⟩
  · have hfirst (e : ErrCode) (he : Applies i s e) : priority .nostate ≤ priority e :=
      (not_imp_not.1 (hother e) he : e = .nostate) ▸ le_rfl
    exact exec_of_firstError (firstError_eq_some ⟨⟨hinit, hbcrypt⟩, hunseeded⟩ hfirst)
  · exact h.elim (exec_errcode_ne_nostate (.inl rfl) hbefore) (exec_errcode_ne_nostate (.inr rfl) hbefore)

/-! ### A write before and after the completion (R108, R130) -/

/-- A write to a busy block at a writable register is rejected. -/
theorem hostWrite_busy {s : State} {r : Reg} (hb : s.busy = true) (hw : regWritable r = true) (v : Word) :
    s.hostWrite 32 (regOffset r) v = s.rejectWrite.respond .written := by
  rw [State.hostWrite, if_pos (accessLegal_regOffset r), regAt_regOffset]
  simp [hw, hb]

theorem step_write_busy {s : State} {r : Reg} {v : Word} {rest : List Event}
    (he : s.events = .write 32 (regOffset r) v :: rest) (hb : s.busy = true) (hw : regWritable r = true) :
    step s = .next (State.respond .written (State.rejectWrite { s with events := rest })) := by
  rw [step_write he, hostWrite_busy (s := { s with events := rest }) hb hw]

theorem step_write_idle {s : State} {r : Reg} {v : Word} {rest : List Event}
    (he : s.events = .write 32 (regOffset r) v :: rest) (hq : s.sequencer = .idle) (hw : regWritable r = true) :
    step s = .next (State.respond .written (State.storeReg r v { s with events := rest })) := by
  rw [step_write he, hostWrite_idle (s := { s with events := rest }) hq hw]

/-- Every command leaves the block idle, and OVR and the schedule as they were. -/
theorem exec_idle {i : Instr} {s t : State} (h : exec i s = .next t) :
    t.sequencer = .idle ∧ t.status.ovr = s.status.ovr ∧ t.events = s.events := by
  rcases exec_cases h with ⟨c, -, -, rfl⟩ | ⟨hseq, hstatus, -, -, -, -, hevents, -⟩
  · simp
  · exact ⟨hseq, by rw [hstatus], hevents⟩

/-- Settles O46: the rejected write leaves OVR to the completion; the completion leaves an idle block to the write. -/
theorem writeMayFallBeforeOrAfterCompletion : Obligations.WriteMayFallBeforeOrAfterCompletion := by
  intro s i v rest hq
  have hd := decode_encode i
  refine ⟨fun he => ?_, fun he => ?_⟩
  · have hwrite := step_write_busy (r := .dl) he (busy_running hq) rfl
    have hc :
        (State.respond .written (State.rejectWrite { s with events := .complete :: rest })).Completes (encode i) :=
      ⟨hq, .inr rfl⟩
    obtain ⟨t, ht⟩ := exec_next i (State.respond .written (State.rejectWrite { s with events := rest }))
    obtain ⟨hidle, hovr, -⟩ := exec_idle ht
    refine ⟨_, t, hwrite, rfl, rfl, (step_completes_ok hc hd).trans ht, hovr, hidle, fun hdl => ?_⟩
    by_contra hi
    exact hdl ((exec_frame ht).block hi).1
  · have hc : s.Completes (encode i) := ⟨hq, .inr (by rw [he]; rfl)⟩
    obtain ⟨m, hm⟩ := exec_next i { s with events := s.events.tail }
    obtain ⟨hidle, hovr, hevents⟩ := exec_idle hm
    have hnext : m.events = .write 32 0x014 v :: rest := by rw [hevents, he]; rfl
    exact ⟨m, _, (step_completes_ok hc hd).trans hm, hidle, step_write_idle (r := .dl) hnext hidle rfl, rfl, rfl, hovr⟩

end Sys2Proof.Proofs
end

section
/-! Words whose valid bit is 0 (60_exceptions.md R103, 70_reset_and_hazards.md R129): two states that agree wherever the
spec gives a value are told apart by no check, no command, no host access and no reset. Agreement has two parts: the
fields that must be equal as they are, and the storage, whose words are compared under their valid bits. -/

namespace Sys2Proof.Proofs

open Sys2Proof.Machine Sys2Proof.Laws

/-! ### The two parts of agreement -/

/-- s and t are equal in STATUS, the sequencer and the model's own fields. -/
structure SameControl (s t : State) : Prop where
  status : s.status = t.status
  sequencer : s.sequencer = t.sequencer
  events : s.events = t.events
  response : s.response = t.response
  draws : s.draws = t.draws

/-- s and t are equal in COST, KEYLEN, VALID and every word whose valid bit is 1 (R39, R103). -/
structure AgreeStorage (s t : State) : Prop where
  cost : s.cost = t.cost
  keylen : s.keylen = t.keylen
  valid : s.valid = t.valid
  cipher : s.valid.sv = true → s.cipher = t.cipher
  cdata : s.valid.cv = true → s.cdata = t.cdata
  dl : s.valid.dlv = true → s.dl = t.dl
  dr : s.valid.drv = true → s.dr = t.dr
  saltw : ∀ k : Fin 4, s.valid.saltValid k.val = true → s.saltw[k] = t.saltw[k]
  keyw : ∀ w : Fin 18, s.valid.keyValid w.val = true → s.keyw[w] = t.keyw[w]

theorem agree_iff (s t : State) : s.Agree t ↔ SameControl s t ∧ AgreeStorage s t := by
  constructor
  · rintro ⟨hcost, hkeylen, hstatus, hvalid, hseq, hevents, hresponse, hdraws, hcipher, hcdata, hdl, hdr, hsaltw,
      hkeyw⟩
    exact ⟨⟨hstatus, hseq, hevents, hresponse, hdraws⟩,
      ⟨hcost, hkeylen, hvalid, hcipher, hcdata, hdl, hdr, hsaltw, hkeyw⟩⟩
  · rintro ⟨⟨hstatus, hseq, hevents, hresponse, hdraws⟩,
      ⟨hcost, hkeylen, hvalid, hcipher, hcdata, hdl, hdr, hsaltw, hkeyw⟩⟩
    exact ⟨hcost, hkeylen, hstatus, hvalid, hseq, hevents, hresponse, hdraws, hcipher, hcdata, hdl, hdr, hsaltw,
      hkeyw⟩

theorem AgreeStorage.refl (s : State) : AgreeStorage s s :=
  ⟨rfl, rfl, rfl, fun _ => rfl, fun _ => rfl, fun _ => rfl, fun _ => rfl, fun _ _ => rfl, fun _ _ => rfl⟩

/-- States that hold the storage of two that agree in it agree in it. -/
theorem AgreeStorage.congr {s t s' t' : State} (h : AgreeStorage s t) (hs : SameStorage s s') (ht : SameStorage t t') :
    AgreeStorage s' t' := by
  constructor
  · rw [hs.cost, ht.cost]; exact h.cost
  · rw [hs.keylen, ht.keylen]; exact h.keylen
  · rw [hs.valid, ht.valid]; exact h.valid
  · rw [hs.valid, hs.cipher, ht.cipher]; exact h.cipher
  · rw [hs.valid, hs.cdata, ht.cdata]; exact h.cdata
  · rw [hs.valid, hs.dl, ht.dl]; exact h.dl
  · rw [hs.valid, hs.dr, ht.dr]; exact h.dr
  · rw [hs.valid, hs.saltw, ht.saltw]; exact h.saltw
  · rw [hs.valid, hs.keyw, ht.keyw]; exact h.keyw

theorem sameStorage_finish (s : State) : SameStorage s s.finish := by
  constructor <;> simp

theorem sameStorage_acceptCommand (w : Word) (s : State) : SameStorage s (s.acceptCommand w) := by
  constructor <;> simp

/-! ### The operands a command reads when no error applies to it (R103, R104) -/

section Operands

variable {i : Instr} {s : State} (h : firstError i s = none)
include h

theorem seeded_of_no_error (hi : i ≠ .init ∧ i ≠ .bcrypt) : s.Seeded :=
  not_not.1 fun hs => (firstError_eq_none_iff i s).1 h .nostate ⟨hi, hs⟩

theorem blockWritten_of_no_error (hi : i = .encrypt) : s.BlockWritten :=
  not_not.1 fun hs => (firstError_eq_none_iff i s).1 h .uninit (.inl ⟨hi, hs⟩)

theorem saltWritten_of_no_error (hi : i = .expand0Salt ∨ i = .expandKeySalt ∨ i = .eksLoop ∨ i = .bcrypt) :
    s.SaltWritten :=
  not_not.1 fun hs => (firstError_eq_none_iff i s).1 h .uninit (.inr (.inl ⟨hi, hs⟩))

theorem key_of_no_error (hi : i = .expand0Key ∨ i = .expandKeySalt ∨ i = .eksLoop ∨ i = .bcrypt) :
    s.KeylenValid ∧ s.KeyWritten :=
  ⟨not_not.1 fun hs => (firstError_eq_none_iff i s).1 h .keylen ⟨hi, hs⟩,
    not_not.1 fun hs => (firstError_eq_none_iff i s).1 h .uninit (.inr (.inr ⟨hi, hs⟩))⟩

end Operands

theorem getElem_set_congr {n : Nat} {a b : Vector Word n} (k j : Fin n) (v : Word) (h : j ≠ k → a[j] = b[j]) :
    (a.set k.val v)[j] = (b.set k.val v)[j] := by
  simp only [Fin.getElem_fin, Vector.getElem_set]
  split
  · rfl
  · next hne => exact h fun hjk => hne (congrArg Fin.val hjk.symm)

namespace AgreeStorage

variable {s t : State}

theorem firstError_eq (h : AgreeStorage s t) (i : Instr) : firstError i s = firstError i t :=
  firstError_congr i h.cost h.keylen h.valid

/-- The key stream of the password uses only the key words that KeyWritten asks for (R23, R62). -/
theorem kwKey_eq (h : AgreeStorage s t) (hkey : s.KeylenValid ∧ s.KeyWritten) : kwKey s = kwKey t := by
  obtain ⟨hlen, hwritten⟩ := hkey
  refine kwKey_congr hlen (by rw [State.KeylenValid, ← h.keylen]; exact hlen) fun n a b ha hb => ?_
  have hab : b = a := Fin.ext (by rw [hb, ha, h.keylen])
  have hlt : a.val < s.keylen.toNat := ha ▸ Nat.mod_lt _ hlen.1
  have hword := h.keyw ⟨a.val / 4, by omega⟩ (hwritten _ (by dsimp only; omega))
  rw [hab]
  exact congrArg (bigEndianByte · _) hword

theorem saltw_eq (h : AgreeStorage s t) (hsalt : s.SaltWritten) : s.saltw = t.saltw :=
  Vector.ext fun k hk => h.saltw ⟨k, hk⟩ (hsalt ⟨k, hk⟩)

theorem kwSalt_eq (h : AgreeStorage s t) (hsalt : s.SaltWritten) : kwSalt s = kwSalt t := by
  rw [kwSalt, h.saltw_eq hsalt, kwSalt]

theorem bcryptCipher_eq (h : AgreeStorage s t) (hkey : s.KeylenValid ∧ s.KeyWritten) (hsalt : s.SaltWritten) :
    bcryptCipher s = bcryptCipher t := by
  rw [bcryptCipher, h.kwKey_eq hkey, h.kwSalt_eq hsalt, h.saltw_eq hsalt, h.cost, bcryptCipher]

/-! ### What a command and a store make of agreeing storage -/

theorem setCipher (h : AgreeStorage s t) {c c' : Cipher} (hc : c = c') :
    AgreeStorage { s with cipher := c } { t with cipher := c' } :=
  { h with cipher := fun _ => hc }

theorem setBlock (h : AgreeStorage s t) {b b' : Block} (hb : b = b') :
    AgreeStorage { s with dl := b.left, dr := b.right } { t with dl := b'.left, dr := b'.right } :=
  { h with dl := fun _ => congrArg Block.left hb, dr := fun _ => congrArg Block.right hb }

theorem setSeeded (h : AgreeStorage s t) {c c' : Cipher} (hc : c = c') :
    AgreeStorage { s with cipher := c, valid := { s.valid with sv := true } }
      { t with cipher := c', valid := { t.valid with sv := true } } :=
  { h with valid := by rw [h.valid], cipher := fun _ => hc }

theorem setDigest (h : AgreeStorage s t) {d d' : Vector Word 6} (hd : d = d') :
    AgreeStorage { s with cdata := d, valid := { s.valid with cv := true } }
      { t with cdata := d', valid := { t.valid with cv := true } } :=
  { h with valid := by rw [h.valid], cdata := fun _ => hd }

/-- R103, R104: the words a command reads are those its checks ask for, so its results are the same in both states. -/
theorem commandEffect_congr (h : AgreeStorage s t) {i : Instr} (hok : firstError i s = none) :
    AgreeStorage (commandEffect i s) (commandEffect i t) := by
  cases i with
  | init => exact h.setSeeded rfl
  | encrypt =>
    obtain ⟨hdl, hdr⟩ := blockWritten_of_no_error hok rfl
    have hcipher := h.cipher (seeded_of_no_error hok (by decide))
    exact h.setBlock (by rw [hcipher, h.dl hdl, h.dr hdr])
  | expand0Key =>
    have hcipher := h.cipher (seeded_of_no_error hok (by decide))
    have hkey := h.kwKey_eq (key_of_no_error hok (by decide))
    exact h.setCipher (by rw [hcipher, hkey])
  | expand0Salt =>
    have hcipher := h.cipher (seeded_of_no_error hok (by decide))
    have hsalt := h.kwSalt_eq (saltWritten_of_no_error hok (by decide))
    exact h.setCipher (by rw [hcipher, hsalt])
  | expandKeySalt =>
    have hcipher := h.cipher (seeded_of_no_error hok (by decide))
    have hkey := h.kwKey_eq (key_of_no_error hok (by decide))
    have hsaltw := h.saltw_eq (saltWritten_of_no_error hok (by decide))
    exact h.setCipher (by rw [hcipher, hkey, hsaltw])
  | eksLoop =>
    have hcipher := h.cipher (seeded_of_no_error hok (by decide))
    have hkey := h.kwKey_eq (key_of_no_error hok (by decide))
    have hsalt := h.kwSalt_eq (saltWritten_of_no_error hok (by decide))
    exact h.setCipher (by rw [hcipher, hkey, hsalt, h.cost])
  | digest =>
    have hcipher := h.cipher (seeded_of_no_error hok (by decide))
    exact h.setDigest (by rw [hcipher])
  | bcrypt =>
    have hcipher := h.bcryptCipher_eq (key_of_no_error hok (by decide)) (saltWritten_of_no_error hok (by decide))
    exact (h.setSeeded hcipher).setDigest (by rw [hcipher])

/-- R38: the word stored is the same in both states, and no other word gets a valid bit. -/
theorem storeReg_congr (h : AgreeStorage s t) (r : Reg) (v : Word) :
    AgreeStorage (s.storeReg r v) (t.storeReg r v) := by
  have hvalid : (s.storeReg r v).valid = (t.storeReg r v).valid := by rw [storeReg_valid, storeReg_valid, h.valid]
  cases r with
  | cmd => exact h.congr (sameStorage_acceptCommand v s) (sameStorage_acceptCommand v t)
  | status | valid | cdata | pw | sw => exact h
  | cost => exact { h with cost := rfl }
  | keylen => exact { h with keylen := rfl }
  | dl => exact { h with valid := hvalid, dl := fun _ => rfl }
  | dr => exact { h with valid := hvalid, dr := fun _ => rfl }
  | saltw k =>
    refine { h with valid := hvalid, saltw := fun j hj => getElem_set_congr k j v fun hjk => h.saltw j ?_ }
    rw [storeReg_saltValid] at hj
    simpa [hjk.symm] using hj
  | keyw w =>
    refine { h with valid := hvalid, keyw := fun j hj => getElem_set_congr w j v fun hjw => h.keyw j ?_ }
    rw [storeReg_keyValid] at hj
    simpa [hjw.symm] using hj

end AgreeStorage

/-! ### What one event makes of agreeing states -/

/-- A word that is defined only under a condition reads alike where the condition makes it equal. -/
theorem whenDefined_congr {b b' : Bool} {v v' : Word} (hb : b = b') (hv : b = true → v = v') :
    ReadResult.whenDefined b v = ReadResult.whenDefined b' v' := by
  subst hb
  cases b with
  | false => rfl
  | true => rw [hv rfl]

namespace SameControl

variable {s t : State}

theorem busy_eq (h : SameControl s t) : s.busy = t.busy := by
  rw [State.busy, h.sequencer, State.busy]

/-- R39, R40: what a read finds is decided by what agreement compares. -/
theorem readReg_eq (hc : SameControl s t) (h : AgreeStorage s t) (r : Reg) : s.readReg r = t.readReg r := by
  have hbusy := hc.busy_eq
  have hvalid := h.valid
  cases r with
  | cmd => rfl
  | status => simp only [State.readReg, State.statusWord, hc.status, hbusy]
  | valid => simp only [State.readReg, State.validWord, hvalid]
  | cost => exact congrArg ReadResult.value h.cost
  | keylen => exact congrArg ReadResult.value h.keylen
  | dl => exact whenDefined_congr (by rw [hbusy, hvalid]) fun hv => h.dl (Bool.and_eq_true_iff.1 hv).2
  | dr => exact whenDefined_congr (by rw [hbusy, hvalid]) fun hv => h.dr (Bool.and_eq_true_iff.1 hv).2
  | saltw k => exact whenDefined_congr (by rw [hvalid]) (h.saltw k)
  | keyw w => exact whenDefined_congr (by rw [hvalid]) (h.keyw w)
  | cdata j =>
    exact whenDefined_congr (by rw [hbusy, hvalid]) fun hv => by rw [h.cdata (Bool.and_eq_true_iff.1 hv).2]
  | pw i | sw m =>
    exact whenDefined_congr (by rw [hbusy, hvalid]) fun hv => by rw [h.cipher (Bool.and_eq_true_iff.1 hv).2]

end SameControl

section Agree

variable {s t : State}

theorem agree_refl (s : State) : s.Agree s :=
  (agree_iff s s).2 ⟨⟨rfl, rfl, rfl, rfl, rfl⟩, .refl s⟩

/-- What changes none of the storage keeps agreement if it leaves the other fields equal. -/
theorem agree_of_sameStorage (h : s.Agree t) {s' t' : State} (hs : SameStorage s s') (ht : SameStorage t t')
    (hc : SameControl s t → SameControl s' t') : s'.Agree t' := by
  obtain ⟨hcontrol, hstorage⟩ := (agree_iff s t).1 h
  exact (agree_iff s' t').2 ⟨hc hcontrol, hstorage.congr hs ht⟩

theorem agree_events (h : s.Agree t) (es : List Event) :
    State.Agree { s with events := es } { t with events := es } :=
  agree_of_sameStorage h (sameStorage_events s es) (sameStorage_events t es) fun hc => { hc with events := rfl }

theorem agree_respond (h : s.Agree t) (r : Response) : (s.respond r).Agree (t.respond r) :=
  agree_of_sameStorage h (sameStorage_respond r s) (sameStorage_respond r t) fun hc => { hc with response := rfl }

theorem agree_rejectWrite (h : s.Agree t) : s.rejectWrite.Agree t.rejectWrite :=
  agree_of_sameStorage h (sameStorage_rejectWrite s) (sameStorage_rejectWrite t) fun hc =>
    { hc with status := by simp [hc.status] }

theorem agree_raiseError (h : s.Agree t) (c : ErrCode) : (s.raiseError c).Agree (t.raiseError c) :=
  agree_of_sameStorage h (sameStorage_raiseError c s) (sameStorage_raiseError c t) fun hc =>
    { hc with status := by simp [hc.status], sequencer := rfl }

theorem agree_finish (h : s.Agree t) : s.finish.Agree t.finish :=
  agree_of_sameStorage h (sameStorage_finish s) (sameStorage_finish t) fun hc =>
    { hc with status := by simp [hc.status], sequencer := rfl }

theorem agree_commandEffect (h : s.Agree t) {i : Instr} (hok : firstError i s = none) :
    (commandEffect i s).Agree (commandEffect i t) := by
  obtain ⟨hc, hs⟩ := (agree_iff s t).1 h
  refine (agree_iff _ _).2 ⟨?_, hs.commandEffect_congr hok⟩
  exact ⟨by simp [hc.status], by simp [hc.sequencer], by simp [hc.events], by simp [hc.response], by simp [hc.draws]⟩

/-- The free draw that answers a read has the same number in both runs (log entry 2). -/
theorem agree_answerRead (h : s.Agree t) (result : ReadResult) : (s.answerRead result).Agree (t.answerRead result) := by
  cases result with
  | value v => exact agree_respond h (.data v)
  | refused => exact agree_respond h .busError
  | anyValue =>
    obtain ⟨hc, hs⟩ := (agree_iff s t).1 h
    rw [State.answerRead, State.answerRead, hc.draws]
    exact (agree_iff _ _).2 ⟨{ hc with response := rfl, draws := rfl }, { hs with }⟩

theorem agree_hostRead (h : s.Agree t) (width : Nat) (off : Offset) :
    (s.hostRead width off).Agree (t.hostRead width off) := by
  obtain ⟨hc, hs⟩ := (agree_iff s t).1 h
  unfold State.hostRead
  split
  · split
    · exact agree_respond h .busError
    · next r _ =>
      rw [hc.readReg_eq hs r]
      exact agree_answerRead h _
  · exact agree_respond h .busError

theorem agree_storeReg (h : s.Agree t) (r : Reg) (v : Word) : (s.storeReg r v).Agree (t.storeReg r v) := by
  obtain ⟨hc, hs⟩ := (agree_iff s t).1 h
  refine (agree_iff _ _).2 ⟨?_, hs.storeReg_congr r v⟩
  cases r with
  | cmd => exact { hc with status := by simp [State.storeReg, hc.status], sequencer := rfl }
  | _ => exact { hc with }

theorem agree_hostWrite (h : s.Agree t) (width : Nat) (off : Offset) (v : Word) :
    (s.hostWrite width off v).Agree (t.hostWrite width off v) := by
  obtain ⟨hc, -⟩ := (agree_iff s t).1 h
  unfold State.hostWrite
  rw [hc.busy_eq]
  split
  · split
    · exact agree_respond h .busError
    · next r _ =>
      split
      · split
        · exact agree_respond (agree_rejectWrite h) .written
        · exact agree_respond (agree_storeReg h r v) .written
      · exact agree_respond h .busError
  · exact agree_respond h .busError

/-- R126: of the state before, the reset input keeps only the events to come and the number of the next draw. -/
theorem agree_resetInput (h : s.Agree t) : s.resetInput.Agree t.resetInput := by
  obtain ⟨hc, -⟩ := (agree_iff s t).1 h
  rw [State.resetInput, hc.events, hc.draws]
  exact agree_refl t.resetInput

/-- Both outcomes are next states, and the two agree. -/
def AgreeNext (o o' : Host.Outcome State Fault Refusal) : Prop :=
  ∃ s' t', o = .next s' ∧ o' = .next t' ∧ s'.Agree t'

theorem agreeNext_of_agree (h : s.Agree t) : AgreeNext (.next s) (.next t) := ⟨s, t, rfl, rfl, h⟩

theorem agreeNext_exec (h : s.Agree t) (i : Instr) : AgreeNext (exec i s) (exec i t) := by
  obtain ⟨-, hs⟩ := (agree_iff s t).1 h
  have herror := hs.firstError_eq i
  cases hf : firstError i s with
  | some c =>
    rw [exec_of_firstError hf, exec_of_firstError (herror ▸ hf)]
    exact agreeNext_of_agree (agree_raiseError h c)
  | none =>
    rw [exec_of_no_error hf, exec_of_no_error (herror ▸ hf)]
    exact agreeNext_of_agree (agree_finish (agree_commandEffect h hf))

theorem agreeNext_completeCommand (h : s.Agree t) : AgreeNext s.completeCommand t.completeCommand := by
  obtain ⟨hc, -⟩ := (agree_iff s t).1 h
  have hseq := hc.sequencer
  cases hq : s.sequencer with
  | idle =>
    rw [completeCommand_idle hq, completeCommand_idle (hseq ▸ hq)]
    exact agreeNext_of_agree h
  | running w =>
    cases hd : decode w with
    | ok i =>
      rw [completeCommand_ok hq hd, completeCommand_ok (hseq ▸ hq) hd]
      exact agreeNext_exec h i
    | error e =>
      rw [completeCommand_error hq hd, completeCommand_error (hseq ▸ hq) hd]
      exact agreeNext_of_agree (agree_raiseError h .illegal)

theorem agreeNext_applyEvent (h : s.Agree t) (e : Event) : AgreeNext (s.applyEvent e) (t.applyEvent e) := by
  cases e with
  | read width off => exact agreeNext_of_agree (agree_hostRead h width off)
  | write width off v => exact agreeNext_of_agree (agree_hostWrite h width off v)
  | complete => exact agreeNext_completeCommand h
  | reset => exact agreeNext_of_agree (agree_resetInput h)

end Agree

/-- Settles O38: both states have the same next event, and each event keeps agreement. -/
theorem unspecifiedWordsReachNoResult : Obligations.UnspecifiedWordsReachNoResult := by
  intro s t h
  obtain ⟨hc, -⟩ := (agree_iff s t).1 h
  have hevents := hc.events
  cases he : s.events with
  | nil =>
    rw [step_nil he, step_nil (hevents ▸ he)]
    exact agreeNext_completeCommand h
  | cons e rest =>
    rw [step_cons he, step_cons (hevents ▸ he)]
    exact agreeNext_applyEvent (agree_events h rest) e

end Sys2Proof.Proofs
end

section
/-! Several blocks in one system (60_exceptions.md section 3): the step of one block is a change of one entry. -/

namespace Sys2Proof.Proofs

open Sys2Proof.Machine

/-- Everything the step of block k can do: nothing if no block has that number, or put its next state in its place. -/
theorem stepBlock_cases {sys sys' : System} {k : Nat} (h : sys.stepBlock k = .next sys') :
    sys' = sys ∨ ∃ m t, sys.blocks[k]? = some m ∧ sys'.blocks = sys.blocks.set k { m with block := t } := by
  unfold System.stepBlock at h
  split at h
  · cases h
    exact .inl rfl
  · next m hm =>
    split at h
    · next t _ =>
      cases h
      exact .inr ⟨m, t, hm, rfl⟩
    · cases h
    · cases h

/-- Settles O47: the entry that changes is block k's own, and keeps its BASE. -/
theorem otherBlocksAreUntouched : Obligations.OtherBlocksAreUntouched := by
  intro sys sys' k h
  rcases stepBlock_cases h with rfl | ⟨m, t, hm, hblocks⟩
  · exact ⟨rfl, fun _ _ => rfl, fun _ => rfl⟩
  · rw [hblocks]
    refine ⟨List.length_set, fun j hj => List.getElem?_set_ne hj.symm, fun j => ?_⟩
    by_cases hj : j = k
    · subst hj
      rw [List.getElem?_set_self', hm]
      rfl
    · rw [List.getElem?_set_ne (Ne.symm hj)]

end Sys2Proof.Proofs
end

section
/-! Reset and hazards (70_reset_and_hazards.md): a write to a busy block, what the reset input leaves, the bits that only it
clears, and how a run reaches the completion of its command and the end of its schedule. -/

namespace Sys2Proof.Proofs

open Sys2Proof.Machine Sys2Proof.Laws

/-! ### A write while busy (R130) -/

theorem exists_writable_reg {off : Offset} (h : WritableOffset off) : ∃ r, off = regOffset r ∧ regWritable r = true := by
  obtain ⟨haligned, r, hr, hw⟩ := (writableOffset_iff off).1 h
  exact ⟨r, eq_regOffset_of_regAt haligned hr, hw⟩

/-- Settles O28: a write at a writable register of a busy block is rejected, and any other write is a bus error. -/
theorem busyWriteSetsOverrunOnly : Obligations.BusyWriteSetsOverrunOnly := by
  intro s off v rest he
  refine ⟨fun hb hoff => ?_, fun hoff => (refusedAccessChangesNothing s 32 off rest).2 v (.inr hoff) he⟩
  obtain ⟨r, rfl, hw⟩ := exists_writable_reg hoff
  exact ⟨_, step_write_busy he hb hw, rfl⟩

/-! ### The reset input (R124, R126) -/

theorem getElem_drawWords (n base : Nat) (i : Fin n) : (drawWords n base)[i] = Config.freeWord (base + i.val) :=
  Vector.getElem_ofFn i.isLt

theorem getElem_resetInput_sbox (s : State) (k : Fin 4) (i : Fin 256) :
    s.resetInput.cipher.sbox[k][i] = Config.freeWord (s.draws + 18 + 256 * k.val + i.val) := by
  simp only [resetInput_sbox, Fin.getElem_fin, Vector.getElem_ofFn, drawWords]

/-- The reset input leaves STATUS and VALID as the reset state has them. -/
theorem resetInput_words (s : State) : s.resetInput.statusWord = 0 ∧ s.resetInput.validWord = 0 := by
  obtain ⟨hstatus, hvalid, -⟩ := resetStateIsAsSpecified
  have hbusy : s.resetInput.busy = State.reset.busy := (busy_idle (resetInput_sequencer s)).trans (busy_idle rfl).symm
  rw [State.statusWord, State.validWord, resetInput_status, resetInput_valid, hbusy]
  exact ⟨hstatus, hvalid⟩

theorem step_reset {s : State} {rest : List Event} (he : s.events = .reset :: rest) :
    step s = .next (State.resetInput { s with events := rest }) :=
  step_cons he

/-- Settles O35: the step is the reset input, whose every word is the draw of its number. -/
theorem resetInputClearsAndDraws : Obligations.ResetInputClearsAndDraws := by
  intro s rest he
  obtain ⟨hstatus, hvalid⟩ := resetInput_words { s with events := rest }
  exact ⟨_, step_reset he, hstatus, hvalid, rfl, rfl, rfl, resetInput_events _, getElem_drawWords 18 s.draws,
    getElem_resetInput_sbox _, rfl, rfl, getElem_drawWords 18 (s.draws + 1044), getElem_drawWords 4 (s.draws + 1062),
    getElem_drawWords 6 (s.draws + 1066), rfl⟩

/-! ### The bits that only the reset input clears (R126) -/

/-- The bits are kept when STICKY and OVR are and VALID only gains bits. -/
theorem stickyBitsKept_of_orValid {s t : State} (hsticky : s.status.sticky = true → t.status.sticky = true)
    (hovr : s.status.ovr = true → t.status.ovr = true) {w : Valid} (hvalid : t.valid = orValid s.valid w) :
    StickyBitsKept s t := by
  refine ⟨hsticky, hovr, ?_⟩
  rw [hvalid]
  simp +contextual [orValid]

theorem stickyBitsKept_of_valid_eq {s t : State} (hsticky : s.status.sticky = true → t.status.sticky = true)
    (hovr : s.status.ovr = true → t.status.ovr = true) (hvalid : t.valid = s.valid) : StickyBitsKept s t := by
  refine ⟨hsticky, hovr, ?_⟩
  simp [hvalid]

theorem stickyBitsKept_raiseError (c : ErrCode) (s : State) : StickyBitsKept s (s.raiseError c) :=
  stickyBitsKept_of_valid_eq (fun _ => rfl) id rfl

theorem stickyBitsKept_exec {i : Instr} {s t : State} (h : exec i s = .next t) : StickyBitsKept s t := by
  rcases exec_cases h with ⟨c, -, -, rfl⟩ | ⟨-, hstatus, -, -, -, -, -, -, -, hvalid⟩
  · exact stickyBitsKept_raiseError c s
  · have hkept : s.status.sticky = true → t.status.sticky = true := by simp [hstatus]
    have hovr : s.status.ovr = true → t.status.ovr = true := by simp [hstatus]
    rcases hvalid with hv | hv | ⟨-, hv⟩ | hv
    · exact stickyBitsKept_of_valid_eq hkept hovr hv
    all_goals
      refine ⟨hkept, hovr, ?_⟩
      simp [hv]

theorem stickyBitsKept_completeCommand {s t : State} (h : s.completeCommand = .next t) : StickyBitsKept s t := by
  rcases completeCommand_cases h with ⟨-, rfl⟩ | ⟨w, i, -, -, he⟩ | ⟨w, e, -, -, rfl⟩
  · exact stickyBitsKept_of_valid_eq id id rfl
  · exact stickyBitsKept_exec he
  · exact stickyBitsKept_raiseError .illegal s

theorem stickyBitsKept_storeReg (r : Reg) (v : Word) (s : State) : StickyBitsKept s (s.storeReg r v) := by
  refine stickyBitsKept_of_orValid ?_ ?_ (storeReg_valid r v s) <;> cases r <;> exact id

theorem hostRead_status (width : Nat) (off : Offset) (s : State) : (s.hostRead width off).status = s.status := by
  rcases hostRead_cases width off s with h | ⟨r, v, -, -, -, h⟩ | ⟨r, -, -, -, h⟩ <;> simp [h]

theorem stickyBitsKept_hostRead (width : Nat) (off : Offset) (s : State) :
    StickyBitsKept s (s.hostRead width off) :=
  stickyBitsKept_of_valid_eq (by simp [hostRead_status]) (by simp [hostRead_status])
    (sameStorage_hostRead width off s).valid

theorem stickyBitsKept_hostWrite (width : Nat) (off : Offset) (v : Word) (s : State) :
    StickyBitsKept s (s.hostWrite width off v) := by
  rcases hostWrite_cases width off v s with h | ⟨r, -, -, -, -, h⟩ | ⟨r, -, -, -, -, h⟩ <;> rw [h]
  · exact stickyBitsKept_of_valid_eq id id rfl
  · exact stickyBitsKept_of_valid_eq id (fun _ => rfl) rfl
  · exact stickyBitsKept_storeReg r v s

/-- Settles O39, by the event of the step. -/
theorem onlyResetClearsStickyBits : Obligations.OnlyResetClearsStickyBits := by
  intro s t h hr
  rcases step_cases h with ⟨-, hc⟩ | ⟨rest, -, hc⟩ | ⟨width, off, rest, -, rfl⟩ | ⟨width, off, v, rest, -, rfl⟩ |
    ⟨rest, he, -⟩
  · exact stickyBitsKept_completeCommand hc
  · exact stickyBitsKept_completeCommand (s := { s with events := rest }) hc
  · exact stickyBitsKept_hostRead width off { s with events := rest }
  · exact stickyBitsKept_hostWrite width off v { s with events := rest }
  · exact absurd (congrArg List.head? he) hr

/-! ### What a step leaves of the schedule and of a running command (R108, R130, R134) -/

theorem storeReg_keeps_events (r : Reg) (v : Word) (s : State) : (s.storeReg r v).events = s.events := by
  cases r <;> rfl

@[simp] theorem hostRead_events (width : Nat) (off : Offset) (s : State) :
    (s.hostRead width off).events = s.events := by
  rcases hostRead_cases width off s with h | ⟨r, v, -, -, -, h⟩ | ⟨r, -, -, -, h⟩ <;> simp [h]

@[simp] theorem hostWrite_events (width : Nat) (off : Offset) (v : Word) (s : State) :
    (s.hostWrite width off v).events = s.events := by
  rcases hostWrite_cases width off v s with h | ⟨r, -, -, -, -, h⟩ | ⟨r, -, -, -, -, h⟩ <;>
    simp [h, storeReg_keeps_events]

@[simp] theorem hostRead_sequencer (width : Nat) (off : Offset) (s : State) :
    (s.hostRead width off).sequencer = s.sequencer := by
  rcases hostRead_cases width off s with h | ⟨r, v, -, -, -, h⟩ | ⟨r, -, -, -, h⟩ <;> simp [h]

/-- R130: a host write to a busy block does not stop the command or start another. -/
theorem hostWrite_sequencer_busy {s : State} (hb : s.busy = true) (width : Nat) (off : Offset) (v : Word) :
    (s.hostWrite width off v).sequencer = s.sequencer := by
  rcases hostWrite_cases width off v s with h | ⟨r, -, -, -, -, h⟩ | ⟨r, -, -, -, hidle, -⟩
  · simp [h]
  · simp [h]
  · rw [hb] at hidle
    cases hidle

/-- A completion leaves an idle block and takes nothing from the schedule. -/
theorem completeCommand_idle_events {s t : State} (h : s.completeCommand = .next t) :
    t.sequencer = .idle ∧ t.events = s.events := by
  rcases completeCommand_cases h with ⟨hq, rfl⟩ | ⟨w, i, -, -, he⟩ | ⟨w, e, -, -, rfl⟩
  · exact ⟨hq, rfl⟩
  · obtain ⟨hq, -, hevents⟩ := exec_idle he
    exact ⟨hq, hevents⟩
  · simp

/-- Every step uses up the first event of the schedule, where one is left. -/
theorem step_events {s t : State} (h : step s = .next t) : t.events = s.events.tail := by
  rcases step_cases h with ⟨he, hc⟩ | ⟨rest, he, hc⟩ | ⟨width, off, rest, he, rfl⟩ | ⟨width, off, v, rest, he, rfl⟩ |
    ⟨rest, he, rfl⟩
  · rw [(completeCommand_idle_events hc).2, he]
    rfl
  · rw [(completeCommand_idle_events hc).2, he]
    rfl
  all_goals simp [he]

/-- Of the events only the running word's completion and the reset input end a command. -/
theorem step_keeps_running {s t : State} {w : Word} (h : step s = .next t) (hq : s.sequencer = .running w)
    (hc : ¬ s.Completes w) (hr : ¬ s.ResetNext) : t.sequencer = .running w := by
  rcases step_cases h with ⟨he, -⟩ | ⟨rest, he, -⟩ | ⟨width, off, rest, -, rfl⟩ | ⟨width, off, v, rest, -, rfl⟩ |
    ⟨rest, he, -⟩
  · exact absurd ⟨hq, .inl he⟩ hc
  · exact absurd ⟨hq, .inr (by rw [he]; rfl)⟩ hc
  · rw [hostRead_sequencer]
    exact hq
  · rw [hostWrite_sequencer_busy (s := { s with events := rest }) (busy_running hq)]
    exact hq
  · exact absurd (congrArg List.head? he) hr

/-- A completion leaves the block idle with DONE = 1, in an error as well (R111). -/
theorem step_completes_done {s : State} {w : Word} (hc : s.Completes w) :
    ∃ t, step s = .next t ∧ t.sequencer = .idle ∧ t.status.done = true := by
  obtain ⟨t, h⟩ := everyStepAnswersNext s
  refine ⟨t, h, ?_⟩
  rcases step_completes_cases hc h with ⟨c, -, rfl⟩ | ⟨hseq, hstatus⟩
  · exact ⟨rfl, rfl⟩
  · exact ⟨hseq, by rw [hstatus]⟩

/-! ### Runs (R134, under the schedule of log entry 3) -/

theorem run_succ_of_step {s m : State} (h : step s = .next m) (k : Nat) : core.run (k + 1) s = core.run k m := by
  have hcore : core.step s = .next m := h
  simp only [Host.Core.run, hcore]

/-- With no reset input to come, a run reaches the completion of the running word before the schedule is used up. -/
theorem run_reaches_completion {s : State} {w : Word} (hq : s.sequencer = .running w) (hr : Event.reset ∉ s.events) :
    ∃ n m, n ≤ s.events.length ∧ core.run n s = .next m ∧ m.Completes w := by
  induction hes : s.events generalizing s with
  | nil => exact ⟨0, s, le_rfl, rfl, hq, .inl hes⟩
  | cons e rest ih =>
    by_cases hc : s.Completes w
    · exact ⟨0, s, Nat.zero_le _, rfl, hc⟩
    · obtain ⟨m, hm⟩ := everyStepAnswersNext s
      have hrest : m.events = rest := by rw [step_events hm, hes, List.tail_cons]
      have hnow : ¬ s.ResetNext := fun h => hr (List.mem_of_mem_head? h)
      have hlater : Event.reset ∉ m.events := by
        rw [hrest]
        exact fun h => hr (hes ▸ List.mem_cons_of_mem e h)
      obtain ⟨n, m', hn, hrun, hc'⟩ := ih (step_keeps_running hm hq hc hnow) hlater hrest
      exact ⟨n + 1, m', Nat.succ_le_succ hn, (run_succ_of_step hm n).trans hrun, hc'⟩

/-- The step after the last event completes what may still run. -/
theorem run_ends_idle (s : State) :
    ∃ t, core.run (s.events.length + 1) s = .next t ∧ t.sequencer = .idle ∧ t.events = [] := by
  induction hes : s.events generalizing s with
  | nil =>
    obtain ⟨t, ht⟩ := everyStepAnswersNext s
    obtain ⟨hidle, hevents⟩ := completeCommand_idle_events (step_nil hes ▸ ht)
    exact ⟨t, run_succ_of_step ht 0, hidle, hevents.trans hes⟩
  | cons e rest ih =>
    obtain ⟨m, hm⟩ := everyStepAnswersNext s
    have hrest : m.events = rest := by rw [step_events hm, hes, List.tail_cons]
    obtain ⟨t, hrun, hend⟩ := ih m hrest
    exact ⟨t, (run_succ_of_step hm _).trans hrun, hend⟩

/-- Settles O45: a run reaches the completion of its command, and the end of its schedule with nothing running. -/
theorem completionIsReached : Obligations.CompletionIsReached := by
  refine ⟨fun s w hq hr => ?_, run_ends_idle⟩
  obtain ⟨n, m, hn, hrun, hc⟩ := run_reaches_completion hq hr
  obtain ⟨t, ht, hidle, hdone⟩ := step_completes_done hc
  exact ⟨n, m, t, hn, hrun, hc, ht, hidle, hdone⟩

end Sys2Proof.Proofs
end

section
/-! The base case of the consistency invariant, whose step is `everyStepKeepsConsistency` (10_state.md sections 5 and 7). -/

namespace Sys2Proof.Proofs

open Sys2Proof.Machine Sys2Proof.Laws

/-- Settles O36: the reset state has the STATUS, SV, CV and sequencer that the reset input leaves, and what the reset
input leaves is consistent. -/
theorem resetStateIsConsistent : Obligations.ResetStateIsConsistent := by
  have hinput : State.reset.resetInput.Consistent := consistent_resetInput State.reset
  have hvalid : State.reset.valid = State.reset.resetInput.valid := (resetInput_valid State.reset).symm
  exact consistent_congr hinput (resetInput_status State.reset).symm (congrArg Valid.sv hvalid)
    (congrArg Valid.cv hvalid) (resetInput_sequencer State.reset).symm

end Sys2Proof.Proofs
end
